-- ==== Sys2Proof/Word.lean ====
section
/-! DEFINITION. The plain words of the SC48 and the numbers of its blocks (00, "Numbers at a glance"). -/

namespace Sys2Proof

/-- One byte of a host frame or a scan frame (12). -/
abbrev Byte := BitVec 8

/-- One character of the host link as its ten bits in the order in which they stand on the line, bit 0 first: the start
bit, 8 data bits, least significant first, and the stop bit (R163). -/
abbrev Character := BitVec 10

/-- One statistics counter (10, R176): 32 bits, and a raise at the top wraps to 0. -/
abbrev Counter := BitVec 32

/-- A strand number, 0 to 3. -/
abbrev StrandId := Fin 4

/-- A channel number, 0 to 7: scan link receiver, line processor and track table m. -/
abbrev ChannelId := Fin 8

/-- A recipe store slot number, 0 to 15. -/
abbrev SlotId := Fin 16

/-- The greatest travel value, 4,294,967,295 (R4, R5). -/
abbrev maxCoord : Nat := 4294967295

end Sys2Proof
end

