-- ==== Sys2Proof/Syntax.lean ====
section
/-! DEFINITION. The commands of the SC48: one constructor of `Instr` for each row of spec/opcode_table.json, in the
table's order, with the operands its rule gives it. -/

namespace Sys2Proof

/-- The level pair of one encoder, ENCnA written first (R2). -/
structure Phase where
  a : Bool
  b : Bool
  deriving DecidableEq, Repr

/-- Which of the two encoder inputs changed (R2). -/
inductive EncInput where
  | encA
  | encB
  deriving DecidableEq, Repr

/-- The header of a scan frame, offsets 2 to 5 (12, "Scan link frame"). -/
structure ScanHeader where
  headId : Byte
  status : Byte
  tag    : Byte
  groups : Byte
  deriving DecidableEq, Repr

/-- A scan frame after its sync pair: the header, the 13 bytes of each column group in order, and the CRC as
received (12, "Scan link frame"). A frame whose column groups field cannot delimit it has no group bytes. -/
structure ScanFrame where
  header     : ScanHeader
  groupBytes : List Byte
  crc        : BitVec 16
  deriving DecidableEq, Repr

/-- A host frame: kind, tag and body (12, "Host frame envelope"). -/
structure HostFrame where
  kind : Byte
  tag  : Byte
  body : List Byte
  deriving DecidableEq, Repr

/-- Why a host frame in reception is abandoned, but for the gap; an over-length frame with the body length that it
announced, whose two bytes are hunted over again, and a character error with the character received (R163, R164). -/
inductive BadHostFrame where
  | characterError (received : Character)
  | overLength (length : BitVec 16)
  | badCrc
  deriving DecidableEq, Repr

/-- The pins read when a restart is released: BAUD1 and BAUD0 (R163), the encoder level pairs, and the levels of
CUTn and OSCn (R21). -/
structure ReleasePins where
  straps : BitVec 2
  phases : Vector Phase 4
  cut    : Vector Bool 4
  osc    : Vector Bool 4
  deriving DecidableEq, Repr

/-- The commands. A request command (UNKNOWN_KIND, GET_INFO to RESTART) is the taking of the oldest frame of the
receive buffer by R166: its tag and its body are that frame's, so it carries no operand of its own (log 1). -/
inductive Instr where
  /-- ENCODER_COUNT (R2): exactly one of ENCnA and ENCnB changes. -/
  | encoderCount (n : StrandId) (input : EncInput)
  /-- TRIG_PULSE_END (R10): 1 µs has passed since the latest trigger of strand n. -/
  | trigPulseEnd (n : StrandId)
  /-- OSC_EDGE (R62): a rising edge on OSCn. -/
  | oscEdge (n : StrandId)
  /-- CUT_EDGE (R17): a rising edge on CUTn. -/
  | cutEdge (n : StrandId)
  /-- SCAN_FRAME (R25): a frame on SCANm completes, or fails by its column groups field or its CRC. -/
  | scanFrame (m : ChannelId) (f : ScanFrame)
  /-- SCAN_GAP_TIMEOUT (R23): more than 4 µs between two bytes of a frame on SCANm; `inHeader` when the gap falls
  between the sync pair and the end of the header, where the receiver is not yet RECEIVING (log 6). -/
  | scanGapTimeout (m : ChannelId) (inHeader : Bool)
  /-- LINE_WAIT_EXPIRY (R31): the line wait timer started for line k expires (log 4). -/
  | lineWaitExpiry (m : ChannelId) (k : Nat)
  /-- HOST_FRAME (R165): the last CRC byte of a host frame arrives. -/
  | hostFrame (f : HostFrame) (crc : BitVec 16)
  /-- HOST_FRAME_BAD (R164). -/
  | hostFrameBad (why : BadHostFrame)
  /-- HOST_GAP_TIMEOUT (R164): more than 1 ms between two bytes of a host frame. -/
  | hostGapTimeout
  /-- TRANSMIT_COMPLETE (R168): the last character of the oldest output frame has left HTXD. -/
  | transmitComplete
  /-- UNKNOWN_KIND (R167). -/
  | unknownKind
  /-- GET_INFO (R170). -/
  | getInfo
  /-- GET_STATUS (R171). -/
  | getStatus
  /-- SET_STRAND (R1). -/
  | setStrand
  /-- SET_CHANNEL (R172). -/
  | setChannel
  /-- START_STRAND (R11). -/
  | startStrand
  /-- FINISH_STRAND (R13). -/
  | finishStrand
  /-- STOP_STRAND (R14). -/
  | stopStrand
  /-- CUT_STRAND (R17). -/
  | cutStrand
  /-- SCHEDULE_GRADE (R157). -/
  | scheduleGrade
  /-- CLEAR_SCHEDULE (R158). -/
  | clearSchedule
  /-- RELEASE_CHANNEL (R86). -/
  | releaseChannel
  /-- STORE_RECIPE (R148). -/
  | storeRecipe
  /-- READ_RECIPE (R150). -/
  | readRecipe
  /-- FREEZE_RECIPE (R151). -/
  | freezeRecipe
  /-- CLEAR_STORE (R152). -/
  | clearStore
  /-- TAKE_BILLET (R173). -/
  | takeBillet
  /-- GET_TRACKS (R121). -/
  | getTracks
  /-- GET_STATS (R180). -/
  | getStats
  /-- SET_NOTICES (R169). -/
  | setNotices
  /-- RESTART (R174). -/
  | restart
  /-- HOST_RESTART (R174): the last character of the RESTART reply has left HTXD. -/
  | hostRestart
  /-- STORE_COMPLETE (R149): the write in flight has been made, and verified or not. -/
  | storeComplete (verified : Bool)
  /-- FREEZE_COMPLETE (R151). -/
  | freezeComplete (verified : Bool)
  /-- CLEAR_COMPLETE (R152). -/
  | clearComplete
  /-- RESET_LOW (R181): RESET has been low for 1 µs. -/
  | resetLow
  /-- RESET_HIGH (R181). -/
  | resetHigh
  /-- SUPPLY_HOLD (R182): the third consecutive sample below the threshold. -/
  | supplyHold
  /-- SUPPLY_RELEASE (R182): the third consecutive sample at or above the threshold while the filter holds. -/
  | supplyRelease
  /-- POWER_UP (R182): the supply rises from below the power-on level. -/
  | powerUp
  /-- CLOCK_HALT (R183): 8 µs without a REFCLK edge. -/
  | clockHalt
  /-- RESTART_RELEASE (R181): REFCLK runs and the pins stand as given. -/
  | restartRelease (pins : ReleasePins)
  /-- SUPPLY_SAMPLE (R182): one sample of the core supply, below the threshold or not. -/
  | supplySample (isBelow : Bool)
  /-- BOTH_INPUTS_CHANGE (R2): ENCnA and ENCnB take new levels at once. -/
  | bothInputsChange (n : StrandId)
  /-- SYNC_PAIR (R23): the sync pair and the header of a frame have arrived on SCANm. -/
  | syncPair (m : ChannelId) (h : ScanHeader)
  /-- START_BYTE (R164): 0xA5 on HRXD. -/
  | startByte
  deriving DecidableEq, Repr

end Sys2Proof
end

