-- ==== Sys2Proof/Config.lean ====
section
/-! DEFINITION. The free values: choices the spec leaves open. Neither has a body, so nothing can be proved
of the value either takes. -/

namespace Sys2Proof

/-- FREE VALUE (log 8). The spec hands one event of a strand to several channels (a line trigger, R9; the flushes of
a stop, R112; the channels entering IDLE, R87) and states no order among them. The `i`-th time such an order is
needed, channels are taken by rising rank, `Config.channelRank i`. -/
opaque Config.channelRank (i : Nat) (m : ChannelId) : Nat

/-- FREE VALUE (log 9). R69: the order of a line's transverse records against the longitudinal records its closes
emit "is not fixed". Draw `i` decides whether the next record to reach BAn is the next transverse one. -/
opaque Config.transverseFirst (i : Nat) : Bool

end Sys2Proof
end

