-- ==== Sys2Proof/Machine/State.lean ====
section
/-! DEFINITION. The state of the SC48 as plain data: every register, queue, table, counter and flag that the spec
gives a block, the outcomes' reasons, and the machine after reset. Coordinates are natural numbers: travel stops at
4,294,967,295 and does not wrap (R5). -/

namespace Sys2Proof.Machine

/-- Reasons for which a command stops the machine: none. The spec names no such condition; a refused request is a
reply (R167), a bad frame a counter (R25, R164), a halt or a hold a state (R181, R183). Safe. -/
inductive Fault where
  deriving DecidableEq, Repr

/-- Reasons for which a command has no meaning. -/
inductive Refusal where
  /-- Raised only by an arm of `exec` whose command has no meaning yet; safe. No arm raises it. -/
  | notModelled (mnemonic : String)
  deriving DecidableEq, Repr

/-! ### Recipes and the store (08) -/

/-- Polarity of a crack's residual (R43). -/
inductive Polarity where
  | dark
  | bright
  deriving DecidableEq, Repr

/-- A recipe record: name, polarity and 21 numbers, in record order (08; 12, "Recipe record"). -/
structure Recipe where
  name            : Vector Byte 8
  polarity        : Polarity
  leftMargin      : Nat
  rightMargin     : Nat
  shiftK          : Nat
  hitThreshold    : Nat
  runBridge       : Nat
  narrowMax       : Nat
  markCrack       : Nat
  warmLines       : Nat
  obscurePct      : Nat
  softLockMax     : Nat
  missedLimit     : Nat
  gate            : Nat
  confirmLines    : Nat
  gapMax          : Nat
  minDefectMm     : Nat
  rejectSingle    : Nat
  rejectTotal     : Nat
  conditionSingle : Nat
  conditionCount  : Nat
  transReject     : Nat
  coverageMin     : Nat
  deriving DecidableEq, Repr

/-- State of a store slot; the content is present only while VALID (08, "The recipe store"). -/
inductive SlotContent where
  | empty
  | writing
  | valid (r : Recipe)
  deriving DecidableEq, Repr

/-- One store slot (R147). -/
structure Slot where
  content  : SlotContent
  frozen   : Bool
  revision : BitVec 16
  deriving DecidableEq, Repr

/-- The operation in flight (R147); a STORE holds the clamped record it is writing (R149). -/
inductive StoreOp where
  | none
  | store (slot : SlotId) (r : Recipe)
  | freeze (slot : SlotId)
  | clear
  deriving DecidableEq, Repr

/-- The recipe store RS. -/
structure Store where
  slots : Vector Slot 16
  op    : StoreOp
  deriving DecidableEq, Repr

/-- An entry of a strand's recipe history (R155). -/
structure HistoryEntry where
  coord    : Nat
  slot     : SlotId
  revision : BitVec 16
  merged   : Bool
  recipe   : Recipe
  deriving DecidableEq, Repr

/-- An entry of a strand's grade schedule (R157). -/
structure ScheduleEntry where
  coord : Nat
  slot  : SlotId
  deriving DecidableEq, Repr

/-! ### Records and reports (07) -/

/-- The four faces of a billet. -/
inductive Face where
  | faceA
  | faceB
  | faceC
  | faceD
  deriving DecidableEq, Repr

/-- Kind of a defect record; mean peak, hit lines and gap lines belong to longitudinal records only (R69, R108). -/
inductive RecordKind where
  | longitudinal (meanPeak hitLines gapLines : Nat)
  | transverse
  deriving DecidableEq, Repr

/-- A defect record over [start, stop) (R69, R108). -/
structure DefectRecord where
  kind      : RecordKind
  channel   : ChannelId
  face      : Face
  start     : Nat
  stop      : Nat
  lengthMm  : Nat
  firstCol  : Nat
  lastCol   : Nat
  peak      : Nat
  continues : Bool
  continued : Bool
  truncated : Bool
  atMark    : Bool
  deriving DecidableEq, Repr

/-- Flags of one face of a billet (R125). -/
structure FaceFlags where
  tableFull   : Bool
  runOverflow : Bool
  hardLocked  : Bool
  deriving DecidableEq, Repr

/-- The open billet of a strand (R124, R125). A face has an entry when it has an enabled channel on the strand. -/
structure OpenBillet where
  number         : BitVec 16
  head           : Nat
  first          : Bool
  forecastLost   : Bool
  defectsDropped : Bool
  faces          : Vector (Option FaceFlags) 4
  deriving DecidableEq, Repr

/-- The grade of a billet (R138). -/
inductive Grade where
  | accept
  | condition
  | unverified
  | reject
  deriving DecidableEq, Repr

/-- The six grading limits (R137). -/
structure Limits where
  rejectSingle    : Nat
  rejectTotal     : Nat
  conditionSingle : Nat
  conditionCount  : Nat
  transReject     : Nat
  coverageMin     : Nat
  deriving DecidableEq, Repr

/-- The eight billet flags of a report, bit 0 first (R134; 12). -/
structure BilletFlags where
  first          : Bool
  forecastLost   : Bool
  defectsDropped : Bool
  stopped        : Bool
  mixed          : Bool
  recipeMerged   : Bool
  listCapped     : Bool
  priorLoss      : Bool
  deriving DecidableEq, Repr

/-- A recipe entry of a report (R131). -/
structure ReportEntry where
  coord    : Nat
  slot     : SlotId
  revision : BitVec 16
  name     : Vector Byte 8
  merged   : Bool
  deriving DecidableEq, Repr

/-- A face summary (R135). -/
structure FaceSummary where
  face        : Face
  channel     : ChannelId
  flags       : FaceFlags
  longCount   : Nat
  totalMm     : Nat
  longestMm   : Nat
  bins        : Vector Nat 5
  transCount  : Nat
  inspected   : Nat
  obscured    : Nat
  unavailable : Nat
  deriving DecidableEq, Repr

/-- A billet report (R134). -/
structure BilletReport where
  strand   : StrandId
  number   : BitVec 16
  head     : Nat
  tail     : Nat
  lengthMm : Nat
  grade    : Grade
  flags    : BilletFlags
  limits   : Limits
  entries  : List ReportEntry
  faces    : List FaceSummary
  records  : List DefectRecord
  deriving DecidableEq, Repr

/-! ### Strand units and billet assemblers (01, 04, 07) -/

/-- Encoder sense (R1, R2). -/
inductive EncoderSign where
  | plus
  | minus
  deriving DecidableEq, Repr

/-- The strand configuration (R1). -/
structure StrandConfig where
  umPerCount     : Nat
  countsPerLine  : Nat
  mouldToSensor  : Nat
  markHalfWindow : Nat
  torchOffset    : Nat
  lineWaitUs     : Nat
  sign           : EncoderSign
  deriving DecidableEq, Repr

/-- Strand state (01, "Starting, finishing and stopping"). -/
inductive StrandState where
  | idle
  | casting
  | finishing
  deriving DecidableEq, Repr

/-- Strand unit SUn with billet assembler BAn and the strand group of the statistics (01, 04, 07, 08, R178). -/
structure Strand where
  cfg           : StrandConfig
  state         : StrandState
  travel        : Nat
  high          : Nat
  nextTrigger   : Nat
  lastTrigger   : Nat
  lastCut       : Nat
  phase         : Phase
  oscLevel      : Bool
  cutLevel      : Bool
  trig          : Bool
  forecasts     : List Nat
  schedule      : List ScheduleEntry
  history       : List HistoryEntry
  billet        : Option OpenBillet
  defects       : List DefectRecord
  billetCounter : BitVec 16
  stats         : Vector Counter 20
  deriving DecidableEq, Repr

/-! ### Channels: receiver, line processor, track table (02, 03, 05, 06) -/

/-- The channel configuration (R172). -/
structure ChannelConfig where
  enabled : Bool
  strand  : StrandId
  face    : Face
  headId  : Byte
  groups  : Nat
  deriving DecidableEq, Repr

/-- Framing state of a scan link receiver; RECEIVING holds the header that gave the frame's length (R23). -/
inductive Framing where
  | hunting
  | receiving (h : ScanHeader)
  deriving DecidableEq, Repr

/-- Await state; the awaited line and the expected tag are present only in AWAITING (R30). -/
inductive Await where
  | quiet
  | awaiting (k coord : Nat) (expected : Byte)
  deriving DecidableEq, Repr

/-- Scan link receiver SLRm (02, "Receiver state"). The timer holds its length in µs while it runs. -/
structure Receiver where
  framing      : Framing
  await        : Await
  lastExpected : Option Byte
  tagOffset    : Byte
  timer        : Option Nat
  deriving DecidableEq, Repr

/-- The state a channel left for SOFT_LOCK (R78). -/
inductive LeftState where
  | warmup
  | active
  deriving DecidableEq, Repr

/-- Hard-lock cause (R81 to R83). -/
inductive HardCause where
  | obscured
  | link
  | head
  | window
  deriving DecidableEq, Repr

/-- Channel state, with the state left for SOFT_LOCK and the hard-lock cause where they are present (03, 05). -/
inductive ChannelState where
  | disabled
  | idle
  | warmup
  | active
  | softLock (left : LeftState)
  | hardLock (cause : HardCause)
  deriving DecidableEq, Repr

/-- One column: baseline in 1/16 count, and whether it is seeded (R37). -/
structure Column where
  baseline : Nat
  seeded   : Bool
  deriving DecidableEq, Repr

/-- Coverage classes, worse to better (R89). -/
inductive Coverage where
  | unavailable
  | obscured
  | inspected
  deriving DecidableEq, Repr

/-- A coverage segment: `count` consecutive lines from `start` (R90). -/
structure Segment where
  start : Nat
  cls   : Coverage
  count : Nat
  deriving DecidableEq, Repr

/-- Line processor LPm (03, "Line processor state"; 05, "Lock state"). -/
structure LineProcessor where
  state       : ChannelState
  columns     : Vector Column 256
  warmCount   : Nat
  obscuredRun : Nat
  clearRun    : Nat
  softCount   : Nat
  linkRun     : Nat
  log         : List Segment
  deriving DecidableEq, Repr

/-- Stage of a track (06). -/
inductive TrackState where
  | tentative
  | confirmed
  | coasting
  deriving DecidableEq, Repr

/-- A track record (06, "the track record of a slot"). -/
structure Track where
  state     : TrackState
  start     : Nat
  last      : Nat
  centre    : Nat
  minCol    : Nat
  maxCol    : Nat
  hitLines  : Nat
  peakSum   : Nat
  peakMax   : Nat
  missRun   : Nat
  gapLines  : Nat
  continued : Bool
  deriving DecidableEq, Repr

/-- The last line handled by a track table, with the recipe that came with it (R96). -/
structure LastLine where
  coord  : Nat
  recipe : Recipe
  deriving DecidableEq, Repr

/-- Track table TTm: 16 slots, `none` for FREE (R95). -/
structure TrackTable where
  slots    : Vector (Option Track) 16
  lastLine : Option LastLine
  deriving DecidableEq, Repr

/-- The path of channel m and its statistics group (R177). -/
structure Channel where
  cfg   : ChannelConfig
  rx    : Receiver
  lp    : LineProcessor
  tt    : TrackTable
  stats : Vector Counter 22
  deriving DecidableEq, Repr

/-! ### Host link and supervisor (09, 11) -/

/-- Receiver state of the host link (R164). RECEIVING holds the bytes of the frame in reception that the receiver
already has: those behind a start byte found again within an over-length frame. The other bytes of a frame arrive with
the command that ends it (log 7). -/
inductive HostRx where
  | hunting
  | receiving (got : List Byte)
  deriving DecidableEq, Repr

/-- A frame of the output queue; its envelope (start byte, length, CRC) is `OutFrame.wire` (12). -/
structure OutFrame where
  kind : Byte
  tag  : Byte
  body : List Byte
  deriving DecidableEq, Repr

/-- The host link interface (09). -/
structure Hli where
  lineRate       : BitVec 2
  rx             : HostRx
  buffer         : List HostFrame
  inHand         : Option HostFrame
  output         : List OutFrame
  mask           : Byte
  restartPending : Bool
  deriving DecidableEq, Repr

/-- Clock state (R183). -/
inductive ClockState where
  | running
  | halted
  deriving DecidableEq, Repr

/-- The five restart causes, in code order (R184; 12). -/
inductive RestartCause where
  | powerUp
  | supplyLow
  | resetPin
  | clockLoss
  | hostRestart
  deriving DecidableEq, Repr

/-- The supervisor (11). `inRestart` is set from the start of a hold until the release (R181); `started`, `haltHold`
and `resetSeen` are the facts that the cause table asks for (R184; log 17). -/
structure Supervisor where
  holding    : Bool
  below      : Nat
  above      : Nat
  supplySeen : Bool
  pinHold    : Bool
  clock      : ClockState
  lastCause  : RestartCause
  counts     : Vector Nat 5
  inRestart  : Bool
  started    : Bool
  haltHold   : Bool
  resetSeen  : Bool
  deriving DecidableEq, Repr

/-- The whole part. `draws` counts the free choices of order made so far (log 8, 9, 30) and `pending` is the queue of
commands; these two are the model's own. -/
structure State where
  strands   : Vector Strand 4
  channels  : Vector Channel 8
  rq        : List BilletReport
  store     : Store
  hli       : Hli
  linkStats : Vector Counter 5
  sup       : Supervisor
  draws     : Nat
  pending   : List Instr
  deriving DecidableEq, Repr

/-! ### Values after a restart -/

/-- The defaults of the strand configuration table (R1, R21). -/
def StrandConfig.initial : StrandConfig where
  umPerCount := 100
  countsPerLine := 20
  mouldToSensor := 0
  markHalfWindow := 0
  torchOffset := 0
  lineWaitUs := 2000
  sign := .plus

/-- A strand after a restart (R21, R123), with what survives by cause given. -/
def Strand.initial (stats : Vector Counter 20) (billetCounter : BitVec 16) : Strand where
  cfg := StrandConfig.initial
  state := .idle
  travel := 0
  high := 0
  nextTrigger := 0
  lastTrigger := 0
  lastCut := 0
  phase := ⟨false, false⟩
  oscLevel := false
  cutLevel := false
  trig := false
  forecasts := []
  schedule := []
  history := []
  billet := none
  defects := []
  billetCounter := billetCounter
  stats := stats

/-- The defaults of the channel configuration (R172). -/
def ChannelConfig.initial (m : ChannelId) : ChannelConfig where
  enabled := false
  strand := ⟨m.val % 4, Nat.mod_lt _ (by decide)⟩
  face := if m.val ≤ 3 then .faceA else .faceC
  headId := BitVec.ofNat 8 m.val
  groups := 16

/-- A receiver after a restart (R22). -/
def Receiver.initial : Receiver where
  framing := .hunting
  await := .quiet
  lastExpected := none
  tagOffset := 0
  timer := none

/-- The unseeded baseline array (R37). -/
def unseeded : Vector Column 256 := Vector.replicate 256 ⟨0, false⟩

/-- A line processor with everything at its starting value, in the given channel state (R37, R52, R75). -/
def LineProcessor.initial (st : ChannelState) : LineProcessor where
  state := st
  columns := unseeded
  warmCount := 0
  obscuredRun := 0
  clearRun := 0
  softCount := 0
  linkRun := 0
  log := []

/-- An empty track table (R95). -/
def TrackTable.initial : TrackTable where
  slots := Vector.replicate 16 none
  lastLine := none

/-- A channel after a restart (R22, R37, R75, R95, R172), with its counters given. -/
def Channel.initial (m : ChannelId) (stats : Vector Counter 22) : Channel where
  cfg := ChannelConfig.initial m
  rx := Receiver.initial
  lp := LineProcessor.initial .disabled
  tt := TrackTable.initial
  stats := stats

/-- The host link interface held in restart, before the RESTARTED notice (R165, R168, R169, R174). -/
def Hli.initial (lineRate : BitVec 2) : Hli where
  lineRate := lineRate
  rx := .hunting
  buffer := []
  inHand := none
  output := []
  mask := 0xFF#8
  restartPending := false

/-- The store as the part is delivered (R147). -/
def Store.delivered : Store where
  slots := Vector.replicate 16 ⟨.empty, false, 0⟩
  op := .none

/-- The part as delivered, right after its first restart, of cause POWER_UP, was released (R147, R181, R184, R185):
the RESTARTED notice (kind 0xC8) stands in the output queue (R169). The levels read at that release (straps 0, all
plant inputs low) are a DESIGN CHOICE (log 14). -/
def State.reset : State where
  strands := Vector.replicate 4 (Strand.initial (Vector.replicate 20 0) 0)
  channels := Vector.ofFn fun m => Channel.initial m (Vector.replicate 22 0)
  rq := []
  store := Store.delivered
  hli := { Hli.initial 0 with output := [⟨0xC8#8, 0, [0, 1, 0, 0, 0, 0]⟩] }
  linkStats := Vector.replicate 5 0
  sup :=
    { holding := false, below := 0, above := 0, supplySeen := false, pinHold := false, clock := .running,
      lastCause := .powerUp, counts := #v[1, 0, 0, 0, 0], inRestart := false, started := false, haltHold := false,
      resetSeen := false }
  draws := 0
  pending := []

end Sys2Proof.Machine
end

