-- ==== Sys2Proof/Machine/Ops.lean ====
section
/-! DEFINITION. The shared operations on State: access to strands and channels, counters, notices, the running test,
ATTN, the order of channels within one event, millimetres, and the little-endian bytes of frames. -/

namespace Sys2Proof.Machine

/-! ### Access -/

/-- All channels, in ascending number. -/
def allChannels : List ChannelId := [0, 1, 2, 3, 4, 5, 6, 7]

/-- All strands, in ascending number. -/
def allStrands : List StrandId := [0, 1, 2, 3]

/-- All numbers 0 to 15: track slots and store slots, in ascending order. -/
def allSlots : List SlotId := [0, 1, 2, 3, 4, 5, 6, 7, 8, 9, 10, 11, 12, 13, 14, 15]

/-- Strand n. -/
def State.strand (s : State) (n : StrandId) : Strand := s.strands[n]

/-- Channel m. -/
def State.channel (s : State) (m : ChannelId) : Channel := s.channels[m]

/-- Store slot i. -/
def State.slot (s : State) (i : SlotId) : Slot := s.store.slots[i]

/-- `s` with strand n replaced. -/
def State.putStrand (s : State) (n : StrandId) (x : Strand) : State :=
  { s with strands := s.strands.set n x }

/-- `s` with channel m replaced. -/
def State.putChannel (s : State) (m : ChannelId) (x : Channel) : State :=
  { s with channels := s.channels.set m x }

/-- `s` with store slot i replaced. -/
def State.putSlot (s : State) (i : SlotId) (x : Slot) : State :=
  { s with store := { s.store with slots := s.store.slots.set i x } }

/-- Change strand n. -/
def State.modStrand (s : State) (n : StrandId) (f : Strand → Strand) : State := s.putStrand n (f (s.strand n))

/-- Change channel m. -/
def State.modChannel (s : State) (m : ChannelId) (f : Channel → Channel) : State := s.putChannel m (f (s.channel m))

/-- Change the host link interface. -/
def State.modHli (s : State) (f : Hli → Hli) : State := { s with hli := f s.hli }

/-- Change the supervisor. -/
def State.modSup (s : State) (f : Supervisor → Supervisor) : State := { s with sup := f s.sup }

/-- Change the line processor of channel m. -/
def State.modLp (s : State) (m : ChannelId) (f : LineProcessor → LineProcessor) : State :=
  s.modChannel m fun c => { c with lp := f c.lp }

/-- Change the receiver of channel m. -/
def State.modRx (s : State) (m : ChannelId) (f : Receiver → Receiver) : State :=
  s.modChannel m fun c => { c with rx := f c.rx }

/-- Change the track table of channel m. -/
def State.modTt (s : State) (m : ChannelId) (f : TrackTable → TrackTable) : State :=
  s.modChannel m fun c => { c with tt := f c.tt }

/-- The strand that channel m's configuration names. -/
def State.strandOf (s : State) (m : ChannelId) : Strand := s.strand (s.channel m).cfg.strand

/-! ### Running, held, halted (11) -/

/-- The blocks other than SUP take events: no restart hold is in force and REFCLK has not halted (R181, R183). -/
def State.running (s : State) : Bool := !s.sup.inRestart && s.sup.clock == .running

/-- An event of a block other than SUP: it is taken while the part runs, and it is no event otherwise (R181, R183). -/
def whileRunning (s : State) (f : State → State) : State := if s.running then f s else s

/-- Channel m is in HARD_LOCK. -/
def Channel.hardLocked (c : Channel) : Bool :=
  match c.lp.state with
  | .hardLock _ => true
  | _ => false

/-- Output ATTN: low while held, unless the hold began in CLOCK_HALT (R181); high in CLOCK_HALT (R183); otherwise
high while a report waits or a channel is in HARD_LOCK (R84, R143). -/
def State.attn (s : State) : Bool :=
  if s.sup.inRestart then s.sup.haltHold
  else s.sup.clock == .halted || !s.rq.isEmpty || allChannels.any fun m => (s.channel m).hardLocked

/-! ### Statistics counters (10) -/

/-- The channel group in the order of R177. -/
inductive ChannelCounter where
  | linesTaken | groupCheck | frameError | stray | late | missed | headFault | format | tagMismatch | obscuredLines
  | narrowRuns | wideRuns | mark | transverse | runOverflow | tracksOpened | tracksConfirmed | recordsEmitted
  | tooShort | tableFull | softEntries | hardEntries
  deriving DecidableEq, Repr

/-- Place of a counter in the channel group (R177). -/
def channelIndex : ChannelCounter → Fin 22
  | .linesTaken => 0 | .groupCheck => 1 | .frameError => 2 | .stray => 3 | .late => 4 | .missed => 5
  | .headFault => 6 | .format => 7 | .tagMismatch => 8 | .obscuredLines => 9 | .narrowRuns => 10 | .wideRuns => 11
  | .mark => 12 | .transverse => 13 | .runOverflow => 14 | .tracksOpened => 15 | .tracksConfirmed => 16
  | .recordsEmitted => 17 | .tooShort => 18 | .tableFull => 19 | .softEntries => 20 | .hardEntries => 21

/-- The strand group in the order of R178. -/
inductive StrandCounter where
  | triggers | reverseAtZero | forecasts | forecastDrop | cutsAccepted | cutEarly | doubleCut | cutIdle
  | billetsClosed | accept | condition | unverified | reject | defectDrop | tailDiscarded
  | bin0 | bin20 | bin50 | bin100 | bin200
  deriving DecidableEq, Repr

/-- Place of a counter in the strand group (R178). -/
def strandIndex : StrandCounter → Fin 20
  | .triggers => 0 | .reverseAtZero => 1 | .forecasts => 2 | .forecastDrop => 3 | .cutsAccepted => 4
  | .cutEarly => 5 | .doubleCut => 6 | .cutIdle => 7 | .billetsClosed => 8 | .accept => 9 | .condition => 10
  | .unverified => 11 | .reject => 12 | .defectDrop => 13 | .tailDiscarded => 14 | .bin0 => 15 | .bin20 => 16
  | .bin50 => 17 | .bin100 => 18 | .bin200 => 19

/-- The link group in the order of R179. -/
inductive LinkCounter where
  | framesGood | framesBad | overrun | noticesLost | reportLost
  deriving DecidableEq, Repr

/-- Place of a counter in the link group (R179). -/
def linkIndex : LinkCounter → Fin 5
  | .framesGood => 0 | .framesBad => 1 | .overrun => 2 | .noticesLost => 3 | .reportLost => 4

/-- Raise a counter of channel m once for each of k events (R176). -/
def State.raiseChannel (s : State) (m : ChannelId) (c : ChannelCounter) (k : Nat := 1) : State :=
  s.modChannel m fun x =>
    { x with stats := x.stats.set (channelIndex c) (x.stats[channelIndex c] + BitVec.ofNat 32 k) }

/-- Raise a counter of strand n once for each of k events (R176). -/
def State.raiseStrand (s : State) (n : StrandId) (c : StrandCounter) (k : Nat := 1) : State :=
  s.modStrand n fun x =>
    { x with stats := x.stats.set (strandIndex c) (x.stats[strandIndex c] + BitVec.ofNat 32 k) }

/-- Raise a counter of the link group by one (R176). -/
def State.raiseLink (s : State) (c : LinkCounter) : State :=
  { s with linkStats := s.linkStats.set (linkIndex c) (s.linkStats[linkIndex c] + 1) }

/-- The value of a counter of channel m. -/
def State.channelCount (s : State) (m : ChannelId) (c : ChannelCounter) : Counter :=
  (s.channel m).stats[channelIndex c]

/-- The value of a counter of strand n. -/
def State.strandCount (s : State) (n : StrandId) (c : StrandCounter) : Counter :=
  (s.strand n).stats[strandIndex c]

/-- The value of a counter of the link group. -/
def State.linkCount (s : State) (c : LinkCounter) : Counter := s.linkStats[linkIndex c]

/-! ### Bytes (12) -/

/-- `v` in `w` bytes, little-endian (12). -/
def le : Nat → Nat → List Byte
  | 0, _ => []
  | w + 1, v => BitVec.ofNat 8 v :: le w (v / 256)

/-- One byte. -/
def byte (v : Nat) : List Byte := [BitVec.ofNat 8 v]

/-! ### Notices (R168, R169) -/

/-- The eight notice kinds that have a mask flag (R169). -/
inductive NoticeKind where
  | billetReady | channelLock | tagResync | gradeApplied | gradeChangeFailed | storeDone | strandState | reportLost
  deriving DecidableEq, Repr

/-- Bit of the notice mask; the kind byte is 0xC0 plus it (12). -/
def noticeBit : NoticeKind → Nat
  | .billetReady => 0 | .channelLock => 1 | .tagResync => 2 | .gradeApplied => 3 | .gradeChangeFailed => 4
  | .storeDone => 5 | .strandState => 6 | .reportLost => 7

/-- The frame of a notice: tag 0 (R168). -/
def noticeFrame (k : NoticeKind) (body : List Byte) : OutFrame := ⟨BitVec.ofNat 8 (0xC0 + noticeBit k), 0, body⟩

/-- Capacity of the output queue (R168). -/
def outputCapacity : Nat := 16

/-- Free entries of the output queue (R168). -/
def State.freeOutput (s : State) : Nat := outputCapacity - s.hli.output.length

/-- Offer a notice: discarded when its kind is disabled, queued when at least 2 entries are free, and otherwise
dropped and counted NOTICES_LOST (R168, R169). -/
def State.offer (s : State) (k : NoticeKind) (body : List Byte) : State :=
  if s.hli.mask.getLsbD (noticeBit k) then
    if 2 ≤ s.freeOutput then s.modHli fun h => { h with output := h.output ++ [noticeFrame k body] }
    else s.raiseLink .noticesLost
  else s

/-! ### Millimetres (R7) -/

/-- A distance in millimetres: half up, in exact arithmetic (R7). -/
def toMm (counts umPerCount : Nat) : Nat := (counts * umPerCount + 500) / 1000

/-- A distance in a 16-bit millimetre field (R7). -/
def toMm16 (counts umPerCount : Nat) : Nat := min 65535 (toMm counts umPerCount)

/-! ### The order of a strand's channels within one event (log 8) -/

/-- The enabled channels of strand n, in ascending number (R9). -/
def State.channelsOf (s : State) (n : StrandId) : List ChannelId :=
  allChannels.filter fun m => (s.channel m).cfg.enabled && (s.channel m).cfg.strand == n

/-- Insert a channel by rising rank. -/
def insertByRank (rank : ChannelId → Nat) (m : ChannelId) : List ChannelId → List ChannelId
  | [] => [m]
  | x :: xs => if rank m ≤ rank x then m :: x :: xs else x :: insertByRank rank m xs

/-- Sort channels by rising rank. -/
def sortByRank (rank : ChannelId → Nat) : List ChannelId → List ChannelId
  | [] => []
  | m :: ms => insertByRank rank m (sortByRank rank ms)

/-- The order, open in the spec, in which the enabled channels of strand n take the present event (log 8). -/
def State.openOrder (s : State) (n : StrandId) : List ChannelId :=
  sortByRank (Config.channelRank s.draws) (s.channelsOf n)

/-- One order has been drawn. -/
def State.drawn (s : State) (k : Nat := 1) : State := { s with draws := s.draws + k }

/-- Hand an event to the enabled channels of strand n, one after the other, in the open order. -/
def State.eachChannel (s : State) (n : StrandId) (f : ChannelId → State → State) : State :=
  (s.openOrder n).foldl (fun t m => f m t) s.drawn

/-- Merge two lists, keeping the order of each: draw `i` takes from the first list when it is true (log 9). `fuel` is
at least the sum of the lengths. Answers the merged list and the number of draws made. -/
def mergeOpen {α : Type} (pick : Nat → Bool) : Nat → Nat → List α → List α → List α × Nat
  | 0, _, xs, ys => (xs ++ ys, 0)
  | _ + 1, _, [], ys => (ys, 0)
  | _ + 1, _, x :: xs, [] => (x :: xs, 0)
  | fuel + 1, i, x :: xs, y :: ys =>
    if pick i then
      let r := mergeOpen pick fuel (i + 1) xs (y :: ys)
      (x :: r.1, r.2 + 1)
    else
      let r := mergeOpen pick fuel (i + 1) (x :: xs) ys
      (y :: r.1, r.2 + 1)

/-! ### Recipes in force (R155) -/

/-- The recipe history entry in force at coordinate c: the newest at or below it (R155). -/
def entryAt (h : List HistoryEntry) (c : Nat) : Option HistoryEntry := (h.filter fun e => e.coord ≤ c).getLast?

/-- The recipe in force at coordinate c (R155). -/
def recipeAt (h : List HistoryEntry) (c : Nat) : Option Recipe := (entryAt h c).map (·.recipe)

end Sys2Proof.Machine
end

