-- ==== Sys2Proof/Machine/Operands.lean ====
section
/-! DEFINITION. Operand forms: fields of a request body, enumerated codes read from the line, clamping, the CRC of
both links, and the unpacking of scan frames (01, 02, 08, 12). -/

namespace Sys2Proof.Machine

/-! ### Fields of a body (12) -/

/-- The byte at an offset. -/
def byteAt (b : List Byte) (i : Nat) : Nat := (b.getD i 0).toNat

/-- The little-endian 2-byte field at an offset. -/
def u16At (b : List Byte) (i : Nat) : Nat := byteAt b i + 256 * byteAt b (i + 1)

/-- The little-endian 4-byte field at an offset. -/
def u32At (b : List Byte) (i : Nat) : Nat := u16At b i + 65536 * u16At b (i + 2)

/-- A number as an index below `n`, if it is in range; every numbered operand is checked with it (R1, R11, R86, R148).
-/
def inRange (n v : Nat) : Option (Fin n) := if h : v < n then some ⟨v, h⟩ else none

/-- encoder_sign (12, "Codes"). -/
def signOf : Nat → Option EncoderSign
  | 0 => some .plus
  | 1 => some .minus
  | _ => none

/-- Polarity (12, "Codes"). -/
def polarityOf : Nat → Option Polarity
  | 0 => some .dark
  | 1 => some .bright
  | _ => none

/-- Face (12, "Codes"). -/
def faceOf : Nat → Option Face
  | 0 => some .faceA
  | 1 => some .faceB
  | 2 => some .faceC
  | 3 => some .faceD
  | _ => none

/-- An on/off field or a clear flag: 0 or 1 (12, "Codes"; R180). -/
def switchOf : Nat → Option Bool
  | 0 => some false
  | 1 => some true
  | _ => none

/-! ### Clamping (R1, R146, R188) -/

/-- A value below the range is set to the low end, a value above it to the high end. -/
def clamp (lo hi v : Nat) : Nat := max lo (min hi v)

/-- Bits, bit 0 first, as a number. -/
def bitsToNat : List Bool → Nat
  | [] => 0
  | b :: bs => b.toNat + 2 * bitsToNat bs

/-- A clamp mask: one bit per field, set where the stored value differs from the value received (R1, R146). -/
def clampMask (received stored : List Nat) : Nat := bitsToNat (List.zipWith (fun a b => a != b) received stored)

/-- The six numeric fields of a strand configuration, in body order (12). -/
def strandNumbers (c : StrandConfig) : List Nat :=
  [c.umPerCount, c.countsPerLine, c.mouldToSensor, c.markHalfWindow, c.torchOffset, c.lineWaitUs]

/-- The strand configuration of a SET_STRAND body as received (12, "Request bodies"). -/
def receivedStrandConfig (b : List Byte) (sign : EncoderSign) : StrandConfig where
  umPerCount := u16At b 1
  countsPerLine := u16At b 3
  mouldToSensor := u32At b 5
  markHalfWindow := u16At b 9
  torchOffset := u32At b 11
  lineWaitUs := u16At b 15
  sign := sign

/-- Each numeric field brought into its range (R1). -/
def clampStrandConfig (c : StrandConfig) : StrandConfig where
  umPerCount := clamp 10 2000 c.umPerCount
  countsPerLine := clamp 1 1024 c.countsPerLine
  mouldToSensor := clamp 0 16777215 c.mouldToSensor
  markHalfWindow := clamp 0 4095 c.markHalfWindow
  torchOffset := clamp 0 16777215 c.torchOffset
  lineWaitUs := clamp 50 65535 c.lineWaitUs
  sign := c.sign

/-- The 21 numeric fields of a recipe, in record order (R146; 12). -/
def recipeNumbers (r : Recipe) : List Nat :=
  [r.leftMargin, r.rightMargin, r.shiftK, r.hitThreshold, r.runBridge, r.narrowMax, r.markCrack, r.warmLines,
   r.obscurePct, r.softLockMax, r.missedLimit, r.gate, r.confirmLines, r.gapMax, r.minDefectMm, r.rejectSingle,
   r.rejectTotal, r.conditionSingle, r.conditionCount, r.transReject, r.coverageMin]

/-- A recipe record of 37 bytes as received (12, "Recipe record"). -/
def receivedRecipe (b : List Byte) (p : Polarity) : Recipe where
  name := #v[b.getD 0 0, b.getD 1 0, b.getD 2 0, b.getD 3 0, b.getD 4 0, b.getD 5 0, b.getD 6 0, b.getD 7 0]
  polarity := p
  leftMargin := byteAt b 9
  rightMargin := byteAt b 10
  shiftK := byteAt b 11
  hitThreshold := u16At b 12
  runBridge := byteAt b 14
  narrowMax := byteAt b 15
  markCrack := u16At b 16
  warmLines := byteAt b 18
  obscurePct := byteAt b 19
  softLockMax := u16At b 20
  missedLimit := byteAt b 22
  gate := byteAt b 23
  confirmLines := byteAt b 24
  gapMax := byteAt b 25
  minDefectMm := u16At b 26
  rejectSingle := u16At b 28
  rejectTotal := u16At b 30
  conditionSingle := u16At b 32
  conditionCount := byteAt b 34
  transReject := byteAt b 35
  coverageMin := byteAt b 36

/-- Each numeric field of a recipe brought into its range; mark_crack_threshold is clamped against the clamped
hit_threshold, and a received 0 stays 0 (R146). -/
def clampRecipe (r : Recipe) : Recipe :=
  let hit := clamp 8 2047 r.hitThreshold
  { r with
    leftMargin := clamp 0 64 r.leftMargin
    rightMargin := clamp 0 64 r.rightMargin
    shiftK := clamp 1 8 r.shiftK
    hitThreshold := hit
    runBridge := clamp 0 3 r.runBridge
    narrowMax := clamp 1 32 r.narrowMax
    markCrack := if r.markCrack = 0 then 0 else clamp hit 4095 r.markCrack
    warmLines := clamp 4 255 r.warmLines
    obscurePct := clamp 10 100 r.obscurePct
    softLockMax := clamp 8 4096 r.softLockMax
    missedLimit := clamp 1 255 r.missedLimit
    gate := clamp 1 16 r.gate
    confirmLines := clamp 2 64 r.confirmLines
    gapMax := clamp 0 32 r.gapMax
    minDefectMm := clamp 0 1000 r.minDefectMm
    rejectSingle := clamp 0 65535 r.rejectSingle
    rejectTotal := clamp 0 65535 r.rejectTotal
    conditionSingle := clamp 0 65535 r.conditionSingle
    conditionCount := clamp 0 255 r.conditionCount
    transReject := clamp 0 255 r.transReject
    coverageMin := clamp 0 100 r.coverageMin }

/-- A clamped record whose condition_single_mm and reject_single_mm are both set and cross is refused (R146). -/
def limitsCross (r : Recipe) : Bool :=
  r.conditionSingle != 0 && r.rejectSingle != 0 && decide (r.rejectSingle < r.conditionSingle)

/-- A received record checked and clamped: the clamped recipe and the clamp mask, or none for BAD_ARGUMENT (R146). -/
def checkRecipe (b : List Byte) : Option (Recipe × Nat) :=
  match polarityOf (byteAt b 8) with
  | none => none
  | some p =>
    let raw := receivedRecipe b p
    let r := clampRecipe raw
    if limitsCross r then none else some (r, clampMask (recipeNumbers raw) (recipeNumbers r))

/-! ### CRC of both links (R23, R164) -/

/-- One bit of the CRC, most significant bit first, polynomial 0x1021. -/
def crcBit (crc : BitVec 16) : BitVec 16 := if crc.msb then (crc <<< 1) ^^^ 0x1021#16 else crc <<< 1

/-- Apply a step a number of times. -/
def repeatStep {α : Type} (f : α → α) : Nat → α → α
  | 0, x => x
  | k + 1, x => repeatStep f k (f x)

/-- One byte of the CRC. -/
def crcByte (crc : BitVec 16) (b : Byte) : BitVec 16 := repeatStep crcBit 8 (crc ^^^ (b.zeroExtend 16 <<< 8))

/-- CRC-16, polynomial 0x1021, initial value 0xFFFF, no reflection, no final exclusive OR (R23). -/
def crc16 (bytes : List Byte) : BitVec 16 := bytes.foldl crcByte 0xFFFF#16

/-- The CRC of a host frame: over the length, kind, tag and body bytes (R164). -/
def hostCrc (kind tag : Byte) (body : List Byte) : BitVec 16 := crc16 (le 2 body.length ++ [kind, tag] ++ body)

/-- An output frame as it leaves HTXD: start byte, length, kind, tag, body, CRC low byte first (12; R164). -/
def OutFrame.wire (f : OutFrame) : List Byte :=
  0xA5#8 :: le 2 f.body.length ++ [f.kind, f.tag] ++ f.body ++ le 2 (hostCrc f.kind f.tag f.body).toNat

/-! ### The characters of the host link (R163) -/

/-- The character that carries a byte: a low start bit, the byte, a high stop bit (R163; log 38 for the levels). -/
def character (b : Byte) : Character := 1#1 ++ b ++ 0#1

/-- R163: a character received with its stop bit low is a character error. -/
def isCharacterError (received : Character) : Bool := !received.getLsbD 0 && !received.getLsbD 9

/-- An output frame as one unbroken run of characters, in the bits of the line (R163). -/
def OutFrame.lineBits (f : OutFrame) : List Bool := f.wire.flatMap fun b => (List.range 10).map (character b).getLsbD

/-- The idle level of HTXD, that of the stop bit (DEDUCED, log 38). -/
def idleLevel : Bool := true

/-- The frame that the transmitter may be sending: the oldest of the output queue (R163). While the part is held and
during CLOCK_HALT the transmitter is idle (R163, R181, R183). -/
def State.transmitting (s : State) : Option OutFrame := if s.running then s.hli.output.head? else none

/-- Output HTXD, when `begun` bits of the oldest output frame have begun on the line: the level of the latest of them.
Before the first, after the last and with the transmitter idle it is the idle level (R163). The time that the
transmitter leaves between frames is open, and no time is counted: `begun` stands for it (log 20). -/
def State.htxd (s : State) (begun : Nat) : Bool :=
  match s.transmitting, begun with
  | some f, i + 1 => f.lineBits.getD i idleLevel
  | some _, 0 => idleLevel
  | none, _ => idleLevel

/-- The rate of the host link in bits per second, by the straps (R163; 00, "Signal summary"). -/
def bitsPerSecond (straps : BitVec 2) : Nat :=
  if straps = 0 then 115200 else if straps = 1 then 460800 else if straps = 2 then 921600 else 2000000

/-- Output HTXD, the given nanoseconds after the first bit of the oldest output frame has begun (R163). -/
def State.htxdAfter (s : State) (ns : Nat) : Bool := s.htxd (ns * bitsPerSecond s.hli.lineRate / 1000000000 + 1)

/-! ### Scan frames (R23, R186) -/

/-- R23: a column groups field within 4..32 delimits a frame. -/
def groupsDelimit (h : ScanHeader) : Bool := 4 ≤ h.groups.toNat && h.groups.toNat ≤ 32

/-- The CRC of a scan frame: over the header and all group bytes (R23). -/
def scanCrc (f : ScanFrame) : BitVec 16 :=
  crc16 ([f.header.headId, f.header.status, f.header.tag, f.header.groups] ++ f.groupBytes)

/-- One sample of a taken line, with the invalid mark of its group (R33). -/
structure Sample where
  value   : Nat
  invalid : Bool
  deriving DecidableEq, Repr

/-- The two samples of three packed bytes (R186). -/
def unpackPair (b0 b1 b2 : Byte) : List Nat :=
  [b0.toNat + 256 * (b1.toNat % 16), b1.toNat / 16 + 16 * b2.toNat]

/-- The check byte equals the exclusive OR of the 12 packed sample bytes (R33). -/
def groupPasses (packed : List Byte) (check : Byte) : Bool := packed.foldl (· ^^^ ·) 0 == check

/-- The eight samples of one group of 13 bytes, each marked invalid when the group's check fails (R33, R186). -/
def unpackGroup : List Byte → List Sample
  | [a0, a1, a2, b0, b1, b2, c0, c1, c2, d0, d1, d2, check] =>
    let ok := groupPasses [a0, a1, a2, b0, b1, b2, c0, c1, c2, d0, d1, d2] check
    (unpackPair a0 a1 a2 ++ unpackPair b0 b1 b2 ++ unpackPair c0 c1 c2 ++ unpackPair d0 d1 d2).map fun v => ⟨v, !ok⟩
  | _ => []

/-- The 13 bytes of each of the first `k` groups. -/
def groupsOf : Nat → List Byte → List (List Byte)
  | 0, _ => []
  | k + 1, bytes => bytes.take 13 :: groupsOf k (bytes.drop 13)

/-- The samples of a frame, in column order (R33, R186). -/
def frameSamples (f : ScanFrame) : List Sample := (groupsOf f.header.groups.toNat f.groupBytes).flatMap unpackGroup

/-- A group's check byte fails (R33). -/
def groupFails (group : List Byte) : Bool := !groupPasses (group.take 12) (group.getD 12 0)

/-- How many groups of a frame fail their check (R33). -/
def failingGroups (f : ScanFrame) : Nat :=
  ((groupsOf f.header.groups.toNat f.groupBytes).filter groupFails).length

end Sys2Proof.Machine
end

