-- ==== Sys2Proof/Machine/Flags.lean ====
section
/-! DEFINITION. Flag bytes and enumerated codes as they are written on the host link (12, "Codes"). -/

namespace Sys2Proof.Machine

/-- Billet flag byte, bits 0 to 7 (12, "Billet report"). -/
def billetFlagBits (f : BilletFlags) : Nat :=
  bitsToNat [f.first, f.forecastLost, f.defectsDropped, f.stopped, f.mixed, f.recipeMerged, f.listCapped, f.priorLoss]

/-- Flag byte of an open billet (R145): FIRST, FORECAST_LOST and DEFECTS_DROPPED. -/
def openFlagBits (b : OpenBillet) : Nat := bitsToNat [b.first, b.forecastLost, b.defectsDropped]

/-- Face flag byte, bits 0 to 2. -/
def faceFlagBits (f : FaceFlags) : Nat := bitsToNat [f.tableFull, f.runOverflow, f.hardLocked]

/-- Record flag byte, bits 0 to 3. -/
def recordFlagBits (r : DefectRecord) : Nat := bitsToNat [r.continues, r.continued, r.truncated, r.atMark]

/-- Face code. -/
def faceCode : Face → Nat
  | .faceA => 0 | .faceB => 1 | .faceC => 2 | .faceD => 3

/-- Place of a face among A to D. -/
def faceIndex : Face → Fin 4
  | .faceA => 0 | .faceB => 1 | .faceC => 2 | .faceD => 3

/-- The faces in face order (R134). -/
def allFaces : List Face := [.faceA, .faceB, .faceC, .faceD]

/-- Polarity code. -/
def polarityCode : Polarity → Nat
  | .dark => 0 | .bright => 1

/-- encoder_sign code. -/
def signCode : EncoderSign → Nat
  | .plus => 0 | .minus => 1

/-- Channel state code. -/
def channelStateCode : ChannelState → Nat
  | .disabled => 0 | .idle => 1 | .warmup => 2 | .active => 3 | .softLock _ => 4 | .hardLock _ => 5

/-- Code of the state left for SOFT_LOCK, a channel state. -/
def leftCode : LeftState → Nat
  | .warmup => 2 | .active => 3

/-- Strand state code. -/
def strandStateCode : StrandState → Nat
  | .idle => 0 | .casting => 1 | .finishing => 2

/-- Reasons of a STRAND_STATE notice (R16). -/
inductive StrandReason where
  | start | finish | stop | travelEnd | finished
  deriving DecidableEq, Repr

/-- Reason code. -/
def reasonCode : StrandReason → Nat
  | .start => 0 | .finish => 1 | .stop => 2 | .travelEnd => 3 | .finished => 4

/-- Track state code of an occupied slot; FREE is 0. -/
def trackStateCode : TrackState → Nat
  | .tentative => 1 | .confirmed => 2 | .coasting => 3

/-- Record kind code. -/
def kindCode : RecordKind → Nat
  | .longitudinal _ _ _ => 0 | .transverse => 1

/-- Grade code. -/
def gradeCode : Grade → Nat
  | .accept => 0 | .condition => 1 | .unverified => 2 | .reject => 3

/-- Outcomes of a cut (R17, R18). -/
inductive CutOutcome where
  | accepted | cutIdle | cutEarly | doubleCut
  deriving DecidableEq, Repr

/-- Cut outcome code. -/
def cutCode : CutOutcome → Nat
  | .accepted => 0 | .cutIdle => 1 | .cutEarly => 2 | .doubleCut => 3

/-- Causes of a CHANNEL_LOCK notice (R87). -/
inductive LockCause where
  | obscured | link | head | window | cleared | released | recipe | strandIdle
  deriving DecidableEq, Repr

/-- Lock cause code. -/
def lockCauseCode : LockCause → Nat
  | .obscured => 0 | .link => 1 | .head => 2 | .window => 3 | .cleared => 4 | .released => 5 | .recipe => 6
  | .strandIdle => 7

/-- A hard-lock cause as a lock cause. -/
def hardCauseLock : HardCause → LockCause
  | .obscured => .obscured | .link => .link | .head => .head | .window => .window

/-- Slot state code. -/
def slotStateCode : SlotContent → Nat
  | .empty => 0 | .writing => 1 | .valid _ => 2

/-- Operation code. -/
def opCode : StoreOp → Nat
  | .none => 0 | .store _ _ => 1 | .freeze _ => 2 | .clear => 3

/-- Restart cause code. -/
def causeCode : RestartCause → Nat
  | .powerUp => 0 | .supplyLow => 1 | .resetPin => 2 | .clockLoss => 3 | .hostRestart => 4

/-- Place of a restart cause among the five counts (R185). -/
def causeIndex : RestartCause → Fin 5
  | .powerUp => 0 | .supplyLow => 1 | .resetPin => 2 | .clockLoss => 3 | .hostRestart => 4

/-- Result codes (R167; 12). -/
inductive ResultCode where
  | ok | badLength | unknownKind | badArgument | badConfig | notIdle | notCasting | busy | frozen | empty | order
  | full | notLocked | storeFailed
  deriving DecidableEq, Repr

/-- Result code number. -/
def resultCode : ResultCode → Nat
  | .ok => 0 | .badLength => 1 | .unknownKind => 2 | .badArgument => 3 | .badConfig => 4 | .notIdle => 5
  | .notCasting => 6 | .busy => 7 | .frozen => 8 | .empty => 9 | .order => 10 | .full => 11 | .notLocked => 12
  | .storeFailed => 13

end Sys2Proof.Machine
end

