-- ==== Sys2Proof/Machine/Columns.lean ====
section
/-! DEFINITION. The window, the classes of columns, and the arithmetic of one column (03, R39 to R47), and the
obscured-line test (05, R76). -/

namespace Sys2Proof.Machine

/-- C, the number of columns of a channel with `groups` column groups. -/
def columnCount (groups : Nat) : Nat := 8 * groups

/-- Column c lies in the window, left_margin to C − 1 − right_margin (R39). -/
def inWindow (r : Recipe) (groups c : Nat) : Bool :=
  r.leftMargin ≤ c && decide (c + r.rightMargin < columnCount groups)

/-- The window width W (R39); 0 where the margins meet or cross. -/
def windowWidth (r : Recipe) (groups : Nat) : Nat := columnCount groups - r.leftMargin - r.rightMargin

/-- The window is empty: W below 8 (R39). -/
def windowEmpty (r : Recipe) (groups : Nat) : Bool := decide (columnCount groups < r.leftMargin + r.rightMargin + 8)

/-- The columns of the window, left to right. -/
def windowColumns (r : Recipe) (groups : Nat) : List Nat := (List.range (columnCount groups)).filter (inWindow r groups)

/-- Column c of a line as received; a column the line does not carry is unusable. -/
def sampleAt (samples : List Sample) (c : Nat) : Sample := samples.getD c ⟨0, true⟩

/-- Column c of a baseline array. -/
def columnAt (cols : Vector Column 256) (c : Nat) : Column := cols.getD c ⟨0, false⟩

/-- R40: invalid, void, or (where seeding is over) unseeded columns are unusable. `needSeed` is set when the channel
is ACTIVE, or SOFT_LOCK with ACTIVE left. -/
def usable (needSeed : Bool) (col : Column) (x : Sample) : Bool :=
  !x.invalid && x.value != 0 && x.value != 4095 && (col.seeded || !needSeed)

/-- Row 3 of R40 applies: the channel is ACTIVE, or in SOFT_LOCK it left ACTIVE. -/
def seedingOver : ChannelState → Bool
  | .active | .softLock .active => true
  | _ => false

/-- u, the unusable window columns of a line (R76). -/
def unusableCount (r : Recipe) (groups : Nat) (needSeed : Bool) (cols : Vector Column 256) (samples : List Sample) : Nat :=
  ((windowColumns r groups).filter fun c => !usable needSeed (columnAt cols c) (sampleAt samples c)).length

/-- The obscured-line test (R76): 100 × u at or above obscure_pct × W. -/
def lineObscured (r : Recipe) (groups : Nat) (needSeed : Bool) (cols : Vector Column 256) (samples : List Sample) : Bool :=
  decide (r.obscurePct * windowWidth r groups ≤ 100 * unusableCount r groups needSeed cols samples)

/-- The residual of a seeded usable column, truncated toward zero (R43). -/
def residual (p : Polarity) (baseline x : Nat) : Int :=
  match p with
  | .dark => ((baseline : Int) - 16 * x).tdiv 16
  | .bright => (16 * (x : Int) - baseline).tdiv 16

/-- A column is a hit when the channel is ACTIVE and its residual is at or above hit_threshold (R44). -/
def isHit (r : Recipe) (active : Bool) (baseline x : Nat) : Bool :=
  active && decide ((r.hitThreshold : Int) ≤ residual r.polarity baseline x)

/-- The shift of R45: shift_k, and 3 more for a hit. -/
def stepShift (r : Recipe) (hit : Bool) : Nat := if hit then r.shiftK + 3 else r.shiftK

/-- The baseline after its step (R45). -/
def stepBaseline (baseline x shift : Nat) : Nat :=
  ((baseline : Int) + (16 * (x : Int) - baseline).tdiv ((2 ^ shift : Nat) : Int)).toNat

/-- Column c after a processed line (R42, R45, R47): seeded, stepped, or unchanged. -/
def columnAfter (r : Recipe) (groups : Nat) (active : Bool) (samples : List Sample) (c : Nat) (col : Column) : Column :=
  let x := sampleAt samples c
  if inWindow r groups c && usable active col x then
    if col.seeded then
      { col with baseline := stepBaseline col.baseline x.value (stepShift r (isHit r active col.baseline x.value)) }
    else ⟨16 * x.value, true⟩
  else col

/-- The baseline array after a processed line. -/
def columnsAfter (r : Recipe) (groups : Nat) (active : Bool) (samples : List Sample) (cols : Vector Column 256) :
    Vector Column 256 :=
  Vector.ofFn fun c => columnAfter r groups active samples c.val cols[c]

/-- Column c of an ACTIVE line as a hit: its number and its residual (R44, R48). -/
def hitAt (r : Recipe) (samples : List Sample) (cols : Vector Column 256) (c : Nat) : Option (Nat × Nat) :=
  let col := columnAt cols c
  let x := sampleAt samples c
  if usable true col x && col.seeded && isHit r true col.baseline x.value then
    some (c, (residual r.polarity col.baseline x.value).toNat)
  else none

/-- The hits of an ACTIVE line, in column order (R48). -/
def lineHits (r : Recipe) (groups : Nat) (samples : List Sample) (cols : Vector Column 256) : List (Nat × Nat) :=
  (windowColumns r groups).filterMap (hitAt r samples cols)

/-- Seeded columns within the window (R55). -/
def seededInWindow (r : Recipe) (groups : Nat) (cols : Vector Column 256) : Nat :=
  ((windowColumns r groups).filter fun c => (columnAt cols c).seeded).length

end Sys2Proof.Machine
end

