-- ==== Sys2Proof/Machine/Runs.lean ====
section
/-! DEFINITION. Run extraction, narrow and wide runs, and the mark gate (04). -/

namespace Sys2Proof.Machine

/-- A run: first and last hit column and the largest residual of its hits (R57). -/
structure Run where
  first : Nat
  last  : Nat
  peak  : Nat
  deriving DecidableEq, Repr

/-- Width, gap columns included (R57). -/
def Run.width (r : Run) : Nat := r.last - r.first + 1

/-- Centre of the run's ends (R57). -/
def Run.centre (r : Run) : Nat := (r.first + r.last) / 2

/-- Join hits, in column order, into runs: two hits that follow one another belong together when at most `bridge`
columns lie between them (R56). `open?` is the run being gathered. -/
def gatherRuns (bridge : Nat) : Option Run → List (Nat × Nat) → List Run
  | none, [] => []
  | some run, [] => [run]
  | none, (c, p) :: hits => gatherRuns bridge (some ⟨c, c, p⟩) hits
  | some run, (c, p) :: hits =>
    if c ≤ run.last + bridge + 1 then gatherRuns bridge (some ⟨run.first, c, max run.peak p⟩) hits
    else run :: gatherRuns bridge (some ⟨c, c, p⟩) hits

/-- All the runs of a line, left to right (R56). -/
def runsOf (bridge : Nat) (hits : List (Nat × Nat)) : List Run := gatherRuns bridge none hits

/-- The run list: the first 16 runs (R58). -/
def runList (runs : List Run) : List Run := runs.take 16

/-- At least one run of the line is discarded (R58). -/
def runsOverflow (runs : List Run) : Bool := decide (16 < runs.length)

/-- Narrow: width at most narrow_max (R59). -/
def isNarrow (r : Recipe) (run : Run) : Bool := decide (run.width ≤ r.narrowMax)

/-- The mark gate for the line at L: open when a forecast lies within the half window of L, both ends included, on
full values (R65). -/
def gateOpen (forecasts : List Nat) (halfWindow line : Nat) : Bool :=
  forecasts.any fun f => decide (f ≤ line + halfWindow) && decide (line ≤ f + halfWindow)

/-- A wide run is a MARK: gate open, and mark_crack_threshold off or above the peak (R67). -/
def isMark (r : Recipe) (gate : Bool) (run : Run) : Bool :=
  gate && (r.markCrack == 0 || decide (run.peak < r.markCrack))

/-- The transverse record of a wide run on the line at L (R69); AT_MARK when the gate was open (R67). -/
def transverseRecord (m : ChannelId) (face : Face) (pitch um line : Nat) (gate : Bool) (run : Run) : DefectRecord where
  kind := .transverse
  channel := m
  face := face
  start := line
  stop := line + pitch
  lengthMm := toMm16 pitch um
  firstCol := run.first
  lastCol := run.last
  peak := run.peak
  continues := false
  continued := false
  truncated := false
  atMark := gate

/-- What an ACTIVE line's runs come to (R58 to R60, R67 to R69). -/
structure LineRuns where
  narrow      : List Run
  wide        : List Run
  transverses : List Run
  overflow    : Bool

/-- Sort the runs of an ACTIVE line. -/
def sortRuns (r : Recipe) (gate : Bool) (hits : List (Nat × Nat)) : LineRuns :=
  let all := runsOf r.runBridge hits
  let kept := runList all
  let wide := kept.filter fun run => !isNarrow r run
  { narrow := kept.filter (isNarrow r)
    wide := wide
    transverses := wide.filter fun run => !isMark r gate run
    overflow := runsOverflow all }

end Sys2Proof.Machine
end

