-- ==== Sys2Proof/Machine/Tracks.lean ====
section
/-! DEFINITION. The track table of one channel as functions on plain data: expiry, association, outcomes, closes,
flush and split (06). What a record then does on the strand is in Lines and Cuts. -/

namespace Sys2Proof.Machine

/-- The slots of a table as a function of the slot number. -/
def slotsOf (f : SlotId → Option Track) : Vector (Option Track) 16 := Vector.ofFn f

/-- Tentative expiry (R97): a TENTATIVE track 96 line pitches or more behind the line is freed. -/
def expireTrack (pitch line : Nat) (t : Track) : Option Track :=
  if t.state = .tentative ∧ t.start + 96 * pitch ≤ line then none else some t

/-- Tentative expiry of a whole table (R97). -/
def expireSlots (pitch line : Nat) (slots : Vector (Option Track) 16) : Vector (Option Track) 16 :=
  slotsOf fun i => (slots[i]).bind (expireTrack pitch line)

/-- A hold hand-over (R96, R98): the last line is set and tentative tracks expire; nothing else changes. -/
def holdTable (pitch line : Nat) (r : Recipe) (tt : TrackTable) : TrackTable :=
  ⟨expireSlots pitch line tt.slots, some ⟨line, r⟩⟩

/-- A slot while a line is being associated: its track, and the run it has taken, or that it was opened on this line.
-/
structure Work where
  track  : Option Track
  run    : Option Run
  opened : Bool

/-- Distance of two centre columns (R99). -/
def centreDistance (a b : Nat) : Nat := if a ≤ b then b - a else a - b

/-- The distance and start of slot i as a candidate for a run, if it is one (R99). -/
def candidate (gate : Nat) (run : Run) (w : Work) : Option (Nat × Nat) :=
  match w.track with
  | none => none
  | some t =>
    if w.run.isNone && !w.opened && decide (centreDistance run.centre t.centre ≤ gate) then
      some (centreDistance run.centre t.centre, t.start)
    else none

/-- Candidate `a` goes before candidate `b`: smaller distance, then smaller start (R99). -/
def candidateBefore (a b : Nat × Nat) : Bool := decide (a.1 < b.1) || (a.1 == b.1 && decide (a.2 < b.2))

/-- The best candidate among the given slots; of equal ones, the earlier in the list (R99). -/
def bestCandidate (gate : Nat) (run : Run) (work : Vector Work 16) : List SlotId → Option (SlotId × (Nat × Nat))
  | [] => none
  | i :: rest =>
    match candidate gate run work[i], bestCandidate gate run work rest with
    | none, found => found
    | some d, none => some (i, d)
    | some d, some (j, e) => if candidateBefore e d then some (j, e) else some (i, d)

/-- The lowest-numbered FREE slot (R101). -/
def lowestFree (work : Vector Work 16) : Option SlotId := allSlots.find? fun i => (work[i]).track.isNone

/-- A track opened by a run on the line at L (R101). -/
def openTrack (line : Nat) (run : Run) : Track where
  state := .tentative
  start := line
  last := line
  centre := run.centre
  minCol := run.first
  maxCol := run.last
  hitLines := 1
  peakSum := run.peak
  peakMax := run.peak
  missRun := 0
  gapLines := 0
  continued := false

/-- The first pass so far: the slots, and the numbers of tracks opened and of runs dropped. -/
structure FirstPass where
  work    : Vector Work 16
  opened  : Nat
  dropped : Nat

/-- One run of the first pass (R99, R101, R102). -/
def placeRun (gate line : Nat) (p : FirstPass) (run : Run) : FirstPass :=
  match bestCandidate gate run p.work allSlots with
  | some (i, _) => { p with work := p.work.set i { p.work[i] with run := some run } }
  | none =>
    match lowestFree p.work with
    | some i => { p with work := p.work.set i ⟨some (openTrack line run), none, true⟩, opened := p.opened + 1 }
    | none => { p with dropped := p.dropped + 1 }

/-- The first pass: the narrow runs one at a time, from the left (R99, R100). -/
def firstPass (gate line : Nat) (slots : Vector (Option Track) 16) (narrow : List Run) : FirstPass :=
  narrow.foldl (placeRun gate line) ⟨Vector.ofFn fun i => ⟨slots[i], none, false⟩, 0, 0⟩

/-- 16-bit saturating sum (R104). -/
def saturate16 (v : Nat) : Nat := min 65535 v

/-- State of a track after a hit (R104). -/
def stateAfterHit (confirmLines : Nat) (t : Track) (hits : Nat) : TrackState :=
  match t.state with
  | .tentative => if confirmLines ≤ hits then .confirmed else .tentative
  | .confirmed => .confirmed
  | .coasting => .confirmed

/-- A hit (R104). -/
def hitTrack (line confirmLines : Nat) (run : Run) (t : Track) : Track :=
  let more := decide (t.hitLines < 65535)
  let hits := if more then t.hitLines + 1 else t.hitLines
  { t with
    state := stateAfterHit confirmLines t hits
    last := line
    centre := run.centre
    minCol := min t.minCol run.first
    maxCol := max t.maxCol run.last
    hitLines := hits
    peakSum := if more then t.peakSum + run.peak else t.peakSum
    peakMax := max t.peakMax run.peak
    missRun := 0
    gapLines := saturate16 (t.gapLines + t.missRun) }

/-- What a line does to one slot: the track it leaves, the track it closes, whether it confirmed one. -/
structure SlotOutcome where
  track     : Option Track
  closed    : Option Track
  confirmed : Bool

/-- A miss (R106, R107, R108): a TENTATIVE track goes at the second in a row; a CONFIRMED one coasts; a track coasting
beyond gap_max closes. -/
def missTrack (gapMax : Nat) (t : Track) : SlotOutcome :=
  let t' := { t with missRun := t.missRun + 1 }
  match t.state with
  | .tentative => if 2 ≤ t'.missRun then ⟨none, none, false⟩ else ⟨some t', none, false⟩
  | .confirmed | .coasting =>
    let c := { t' with state := .coasting }
    if gapMax < c.missRun then ⟨none, some c, false⟩ else ⟨some c, none, false⟩

/-- A wide span covers a track when it contains the track's centre (R70). -/
def covered (spans : List Run) (t : Track) : Bool :=
  spans.any fun w => decide (w.first ≤ t.centre) && decide (t.centre ≤ w.last)

/-- The second pass on one slot (R103): hit, covered or miss; a track opened on this line takes no outcome. -/
def secondPass (line : Nat) (r : Recipe) (spans : List Run) (w : Work) : SlotOutcome :=
  match w.track with
  | none => ⟨none, none, false⟩
  | some t =>
    if w.opened then ⟨some t, none, false⟩
    else
      match w.run with
      | some run =>
        let t' := hitTrack line r.confirmLines run t
        ⟨some t', none, t.state == .tentative && t'.state == .confirmed⟩
      | none => if covered spans t then ⟨some t, none, false⟩ else missTrack r.gapMax t

/-- What an association hand-over comes to (R96). -/
structure Association where
  table     : TrackTable
  closed    : List Track
  opened    : Nat
  confirmed : Nat
  dropped   : Nat

/-- An association hand-over (R96 to R107): expiry, first pass, second pass. -/
def associate (pitch line : Nat) (r : Recipe) (narrow spans : List Run) (tt : TrackTable) : Association :=
  let p := firstPass r.gate line (expireSlots pitch line tt.slots) narrow
  let out := fun i : SlotId => secondPass line r spans p.work[i]
  { table := ⟨slotsOf fun i => (out i).track, some ⟨line, r⟩⟩
    closed := allSlots.filterMap fun i => (out i).closed
    opened := p.opened
    confirmed := (allSlots.filter fun i => (out i).confirmed).length
    dropped := p.dropped }

/-- The longitudinal record of a track (R108). -/
def trackRecord (m : ChannelId) (face : Face) (pitch um : Nat) (t : Track) : DefectRecord where
  kind := .longitudinal (t.peakSum / t.hitLines) t.hitLines t.gapLines
  channel := m
  face := face
  start := t.start
  stop := t.last + pitch
  lengthMm := toMm16 (t.last + pitch - t.start) um
  firstCol := t.minCol
  lastCol := t.maxCol
  peak := t.peakMax
  continues := false
  continued := t.continued
  truncated := false
  atMark := false

/-- The tracks a flush turns into records, in slot order (R111). -/
def flushedTracks (tt : TrackTable) : List Track :=
  allSlots.filterMap fun i => (tt.slots[i]).filter fun t => t.state != .tentative

/-- A table with every slot FREE and its last line kept (R111). -/
def freeTable (tt : TrackTable) : TrackTable := { tt with slots := Vector.replicate 16 none }

/-- What a cut at K does to one track (R113 to R116): the track it leaves, and the track it reports with the end of
the piece, CONTINUES set for a split piece. -/
inductive CutPiece where
  | none
  | split (t : Track)
  | closed (t : Track)

/-- The piece a cut at K takes from a track (R114, R116). -/
def cutPiece (pitch k : Nat) (t : Track) : CutPiece :=
  if t.state ≠ .tentative ∧ t.start < k then
    if k < t.last + pitch then .split t else .closed t
  else .none

/-- The track a cut at K leaves (R114, R116). -/
def cutRemainder (pitch k : Nat) (t : Track) : Option Track :=
  match cutPiece pitch k t with
  | .none => some t
  | .split t => some { t with start := k, continued := true }
  | .closed _ => none

/-- The record of a cut piece (R114, R116). -/
def pieceRecord (m : ChannelId) (face : Face) (pitch um k : Nat) : CutPiece → Option DefectRecord
  | .none => none
  | .split t =>
    some { trackRecord m face pitch um t with stop := k, lengthMm := toMm16 (k - t.start) um, continues := true }
  | .closed t => some (trackRecord m face pitch um t)

/-- The records a cut at K forms from a table, in slot order (R113). -/
def cutRecords (m : ChannelId) (face : Face) (pitch um k : Nat) (slots : Vector (Option Track) 16) :
    List DefectRecord :=
  allSlots.filterMap fun i => (slots[i]).bind fun t => pieceRecord m face pitch um k (cutPiece pitch k t)

/-- The slots a cut at K leaves (R113). -/
def cutSlots (pitch k : Nat) (slots : Vector (Option Track) 16) : Vector (Option Track) 16 :=
  slotsOf fun i => (slots[i]).bind (cutRemainder pitch k)

/-- The table a split acts on: tentative expiry against the last line handled (R113). -/
def expireForCut (pitch : Nat) (tt : TrackTable) : TrackTable :=
  match tt.lastLine with
  | none => tt
  | some l => { tt with slots := expireSlots pitch l.coord tt.slots }

/-- min_defect_mm of the last line handled (R110). -/
def lastMinDefect (tt : TrackTable) : Nat :=
  match tt.lastLine with
  | none => 0
  | some l => l.recipe.minDefectMm

/-- A longitudinal record passes the minimum-length test (R109): pieces always do. -/
def longEnough (minMm : Nat) (r : DefectRecord) : Bool := r.continues || r.continued || decide (minMm ≤ r.lengthMm)

end Sys2Proof.Machine
end

