-- ==== Sys2Proof/Machine/Billets.lean ====
section
/-! DEFINITION. The coverage log (05, R89 to R92), the partition of the pending queue, the building and grading of a
billet report (07, R129 to R139), and the recipe history (08, R155, R156) as functions on plain data. -/

namespace Sys2Proof.Machine

/-! ### Coverage -/

/-- The worse of two classes (R89). -/
def worse : Coverage → Coverage → Coverage
  | .unavailable, _ => .unavailable
  | _, .unavailable => .unavailable
  | .obscured, _ => .obscured
  | _, .obscured => .obscured
  | .inspected, .inspected => .inspected

/-- Merge the two oldest segments (R91). -/
def mergeOldestSegments : List Segment → List Segment
  | a :: b :: rest => ⟨a.start, worse a.cls b.cls, a.count + b.count⟩ :: rest
  | segs => segs

/-- The newest segment takes one more line when its class is the line's (R90). -/
def extendNewest (cls : Coverage) : List Segment → Option (List Segment)
  | [] => none
  | [seg] => if seg.cls = cls then some [{ seg with count := seg.count + 1 }] else none
  | seg :: next :: rest => (extendNewest cls (next :: rest)).map (seg :: ·)

/-- Capacity of a coverage log (R90). -/
def logCapacity : Nat := 64

/-- Enter one line in a coverage log (R90, R91). -/
def enterCoverage (line : Nat) (cls : Coverage) (log : List Segment) : List Segment :=
  match extendNewest cls log with
  | some log' => log'
  | none => (if logCapacity ≤ log.length then mergeOldestSegments log else log) ++ [⟨line, cls, 1⟩]

/-- How many lines of a segment lie below K (R130). -/
def linesBelow (pitch k : Nat) (seg : Segment) : Nat :=
  if seg.start < k then min seg.count ((k - seg.start + pitch - 1) / pitch) else 0

/-- The parts of a log's segments whose lines lie below K, oldest first (R130). -/
def coverageBelow (pitch k : Nat) (log : List Segment) : List Segment :=
  (log.map fun seg => { seg with count := linesBelow pitch k seg }).filter fun seg => seg.count != 0

/-- The parts of a log's segments whose lines lie at or above K (R130). -/
def coverageAbove (pitch k : Nat) (log : List Segment) : List Segment :=
  (log.map fun seg =>
    { seg with start := seg.start + linesBelow pitch k seg * pitch, count := seg.count - linesBelow pitch k seg }).filter
    fun seg => seg.count != 0

/-- The lines of one class in a list of segments (R130). -/
def countLines (cls : Coverage) (segs : List Segment) : Nat :=
  ((segs.filter fun seg => seg.cls == cls).map (·.count)).sum

/-! ### The recipe history -/

/-- The smallest non-zero of two limits; 0 when both are off (R137). -/
def strictestLimit (a b : Nat) : Nat := if a = 0 then b else if b = 0 then a else min a b

/-- The limits of one recipe (R137). -/
def limitsOf (r : Recipe) : Limits where
  rejectSingle := r.rejectSingle
  rejectTotal := r.rejectTotal
  conditionSingle := r.conditionSingle
  conditionCount := r.conditionCount
  transReject := r.transReject
  coverageMin := r.coverageMin

/-- The strictest values of two sets of limits (R137). -/
def strictest (a b : Limits) : Limits where
  rejectSingle := strictestLimit a.rejectSingle b.rejectSingle
  rejectTotal := strictestLimit a.rejectTotal b.rejectTotal
  conditionSingle := strictestLimit a.conditionSingle b.conditionSingle
  conditionCount := strictestLimit a.conditionCount b.conditionCount
  transReject := strictestLimit a.transReject b.transReject
  coverageMin := max a.coverageMin b.coverageMin

/-- A recipe with its six grading limits replaced. -/
def withLimits (r : Recipe) (l : Limits) : Recipe :=
  { r with
    rejectSingle := l.rejectSingle
    rejectTotal := l.rejectTotal
    conditionSingle := l.conditionSingle
    conditionCount := l.conditionCount
    transReject := l.transReject
    coverageMin := l.coverageMin }

/-- Two neighbouring history entries merged: the older's coordinate, the newer's everything else, the strictest limits
(R156). -/
def mergeEntries (older newer : HistoryEntry) : HistoryEntry where
  coord := older.coord
  slot := newer.slot
  revision := newer.revision
  merged := true
  recipe := withLimits newer.recipe (strictest (limitsOf older.recipe) (limitsOf newer.recipe))

/-- Merge the two oldest entries (R156). -/
def mergeOldestEntries : List HistoryEntry → List HistoryEntry
  | a :: b :: rest => mergeEntries a b :: rest
  | h => h

/-- Capacity of a recipe history (R155). -/
def historyCapacity : Nat := 5

/-- Enter a copy at a line's coordinate: it replaces an entry made at this same trigger, and otherwise is added, with
a merge of the two oldest when 5 entries are held (R156, R159). -/
def enterHistory (h : List HistoryEntry) (e : HistoryEntry) : List HistoryEntry :=
  match h.getLast? with
  | some newest =>
    if newest.coord = e.coord then h.dropLast ++ [e]
    else (if historyCapacity ≤ h.length then mergeOldestEntries h else h) ++ [e]
  | none => [e]

/-- Drop the entries that lie wholly below K: those with a newer entry at or below K (R155). -/
def dropEntriesBelow (k : Nat) : List HistoryEntry → List HistoryEntry
  | a :: b :: rest => if b.coord ≤ k then dropEntriesBelow k (b :: rest) else a :: b :: rest
  | h => h

/-- The entries in force over [head, tail): the one in force at head and those above head and below tail (R131). -/
def entriesOver (head tail : Nat) (h : List HistoryEntry) : List HistoryEntry :=
  (entryAt h head).toList ++ h.filter fun e => decide (head < e.coord) && decide (e.coord < tail)

/-- A history entry as a report lists it (R131). -/
def reportEntry (e : HistoryEntry) : ReportEntry := ⟨e.coord, e.slot, e.revision, e.recipe.name, e.merged⟩

/-- The limits of a billet (R137): the strictest of the entries'. -/
def billetLimits : List HistoryEntry → Limits
  | [] => ⟨0, 0, 0, 0, 0, 0⟩
  | [e] => limitsOf e.recipe
  | e :: rest => strictest (limitsOf e.recipe) (billetLimits rest)

/-! ### The partition at K (R129) -/

/-- The lower piece of a record split at K. -/
def lowerPiece (um k : Nat) (r : DefectRecord) : DefectRecord :=
  { r with stop := k, lengthMm := toMm16 (k - r.start) um, continues := true }

/-- The upper piece of a record split at K. -/
def upperPiece (um k : Nat) (r : DefectRecord) : DefectRecord :=
  { r with start := k, lengthMm := toMm16 (r.stop - k) um, continued := true }

/-- What the partition moves into the closing set from one record (R129). -/
def movedPart (um k : Nat) (r : DefectRecord) : Option DefectRecord :=
  if r.stop ≤ k then some r else if k ≤ r.start then none else some (lowerPiece um k r)

/-- What the partition leaves in the queue of one record (R129). -/
def keptPart (um k : Nat) (r : DefectRecord) : Option DefectRecord :=
  if r.stop ≤ k then none else if k ≤ r.start then some r else some (upperPiece um k r)

/-! ### Face summaries (R135) -/

/-- A record is longitudinal. -/
def isLongitudinal (r : DefectRecord) : Bool :=
  match r.kind with
  | .longitudinal _ _ _ => true
  | .transverse => false

/-- The bin of a length in millimetres: below 20, 20 to 49, 50 to 99, 100 to 199, 200 or more (R135). -/
def binOf (mm : Nat) : Fin 5 :=
  if mm < 20 then 0 else if mm < 50 then 1 else if mm < 100 then 2 else if mm < 200 then 3 else 4

/-- The five bins of a list of lengths (R135). -/
def histogram (lengths : List Nat) : Vector Nat 5 := Vector.ofFn fun i => (lengths.filter fun mm => binOf mm == i).length

/-- The face summary of face f, viewed by channel m (R135). -/
def faceSummary (f : Face) (m : ChannelId) (flags : FaceFlags) (closing : List DefectRecord) (taken : List Segment) :
    FaceSummary :=
  let mine := closing.filter fun r => r.channel == m
  let lengths := (mine.filter isLongitudinal).map (·.lengthMm)
  { face := f
    channel := m
    flags := flags
    longCount := lengths.length
    totalMm := min 65535 lengths.sum
    longestMm := lengths.foldl max 0
    bins := histogram lengths
    transCount := (mine.filter fun r => !isLongitudinal r).length
    inspected := countLines .inspected taken
    obscured := countLines .obscured taken
    unavailable := countLines .unavailable taken }

/-! ### Listed records (R136) -/

/-- Record a is listed before record b: longer in counts, or as long and of smaller start. -/
def listedBefore (a b : DefectRecord) : Bool :=
  decide (b.stop - b.start < a.stop - a.start) ||
    ((a.stop - a.start == b.stop - b.start) && decide (a.start < b.start))

/-- Insert a record into a listed order before the records it does not come after. -/
def insertListed (r : DefectRecord) : List DefectRecord → List DefectRecord
  | [] => [r]
  | x :: xs => if listedBefore x r then x :: insertListed r xs else r :: x :: xs

/-- All records in listed order; equal ones in the order of the closing set (R136). -/
def listedOrder : List DefectRecord → List DefectRecord
  | [] => []
  | r :: rs => insertListed r (listedOrder rs)

/-- At most 32 records are listed (R136). -/
def listLimit : Nat := 32

/-! ### Grading (R138) -/

/-- A limit of 0 is off; a set limit is met at or above it (R138). -/
def meets (limit value : Nat) : Bool := limit != 0 && decide (limit ≤ value)

/-- The REJECT row for one face. -/
def faceRejects (l : Limits) (f : FaceSummary) : Bool :=
  meets l.rejectSingle f.longestMm || meets l.rejectTotal f.totalMm || meets l.transReject f.transCount

/-- The coverage test of the UNVERIFIED row for one face. -/
def faceUncovered (l : Limits) (f : FaceSummary) : Bool :=
  decide (f.inspected * 100 < l.coverageMin * (f.inspected + f.obscured + f.unavailable))

/-- The CONDITION row for one face. -/
def faceConditions (l : Limits) (f : FaceSummary) : Bool :=
  meets l.conditionSingle f.longestMm || meets l.conditionCount f.longCount

/-- The grade of a billet: the first row that holds (R138). -/
def gradeOf (l : Limits) (faces : List FaceSummary) (flags : BilletFlags) : Grade :=
  if faces.any (faceRejects l) then .reject
  else if faces.any (faceUncovered l) || flags.defectsDropped || flags.stopped then .unverified
  else if faces.any (faceConditions l) then .condition
  else .accept

/-- The strand counter of a grade (R139). -/
def gradeCounter : Grade → StrandCounter
  | .accept => .accept | .condition => .condition | .unverified => .unverified | .reject => .reject

/-- The strand counter of a length bin (R139). -/
def binCounter : Fin 5 → StrandCounter
  | 0 => .bin0 | 1 => .bin20 | 2 => .bin50 | 3 => .bin100 | 4 => .bin200

/-! ### The report (R134) -/

/-- The billet flags of a report, before it is pushed (R134). -/
def closeFlags (b : OpenBillet) (stopped : Bool) (entries : List HistoryEntry) (closing : List DefectRecord) :
    BilletFlags where
  first := b.first
  forecastLost := b.forecastLost
  defectsDropped := b.defectsDropped
  stopped := stopped
  mixed := decide (1 < entries.length)
  recipeMerged := entries.any (·.merged)
  listCapped := decide (listLimit < closing.length)
  priorLoss := false

/-- The report of a closed billet (R134 to R138). -/
def buildReport (n : StrandId) (um : Nat) (b : OpenBillet) (tail : Nat) (stopped : Bool) (entries : List HistoryEntry)
    (faces : List FaceSummary) (closing : List DefectRecord) : BilletReport :=
  let limits := billetLimits entries
  let flags := closeFlags b stopped entries closing
  { strand := n
    number := b.number
    head := b.head
    tail := tail
    lengthMm := toMm16 (tail - b.head) um
    grade := gradeOf limits faces flags
    flags := flags
    limits := limits
    entries := entries.map reportEntry
    faces := faces
    records := (listedOrder closing).take listLimit }

end Sys2Proof.Machine
end

