-- ==== Sys2Proof/Machine/Lines.lean ====
section
/-! DEFINITION. What a settled line does (03, 04, 05, 06): reports and records to the billet assembler, the track
hand-overs, the obscuration filter, the locks and the coverage entry. -/

namespace Sys2Proof.Machine

/-! ### Reports and records to BAn (R125, R126) -/

/-- Change the flags of the billet open on strand n, if one is (R125). -/
def State.modBillet (s : State) (n : StrandId) (f : OpenBillet → OpenBillet) : State :=
  s.modStrand n fun x => { x with billet := x.billet.map f }

/-- Change the flags of a face of an open billet. -/
def modFace (f : Face) (g : FaceFlags → FaceFlags) (b : OpenBillet) : OpenBillet :=
  { b with faces := b.faces.set (faceIndex f) (b.faces[faceIndex f].map g) }

/-- A report of channel m sets a flag on its face of the open billet (R125). -/
def State.reportFace (s : State) (m : ChannelId) (g : FaceFlags → FaceFlags) : State :=
  let cfg := (s.channel m).cfg
  s.modBillet cfg.strand (modFace cfg.face g)

/-- Capacity of the pending defect queue (R126). -/
def defectCapacity : Nat := 96

/-- BAn receives a record: queued, or dropped with DEFECT_DROP and DEFECTS_DROPPED (R126). -/
def State.receive (s : State) (n : StrandId) (r : DefectRecord) : State :=
  if (s.strand n).defects.length < defectCapacity then
    s.modStrand n fun x => { x with defects := x.defects ++ [r] }
  else (s.raiseStrand n .defectDrop).modBillet n fun b => { b with defectsDropped := true }

/-- BAn receives records in order. -/
def State.receiveAll (s : State) (n : StrandId) (rs : List DefectRecord) : State :=
  rs.foldl (fun t r => t.receive n r) s

/-- The longitudinal records that pass the minimum-length test, counted emitted, and those that do not, counted
TOO_SHORT (R109). -/
def State.countEmission (s : State) (m : ChannelId) (minMm : Nat) (rs : List DefectRecord) : State :=
  (s.raiseChannel m .recordsEmitted (rs.filter (longEnough minMm)).length).raiseChannel m .tooShort
    (rs.filter fun r => !longEnough minMm r).length

/-- Longitudinal records formed for channel m reach BAn, if long enough (R109). -/
def State.emit (s : State) (m : ChannelId) (minMm : Nat) (rs : List DefectRecord) : State :=
  (s.countEmission m minMm rs).receiveAll (s.channel m).cfg.strand (rs.filter (longEnough minMm))

/-- The record of a track of channel m, under its strand's configuration. -/
def State.recordOf (s : State) (m : ChannelId) (t : Track) : DefectRecord :=
  let cfg := (s.strandOf m).cfg
  trackRecord m (s.channel m).cfg.face cfg.countsPerLine cfg.umPerCount t

/-- A flush of track table m (R111): TRUNCATED records in slot order, judged by the last line's recipe (R110); every
slot is then FREE. -/
def State.flush (s : State) (m : ChannelId) : State :=
  let tt := (s.channel m).tt
  let rs := (flushedTracks tt).map fun t => { s.recordOf m t with truncated := true }
  (s.modTt m freeTable).emit m (lastMinDefect tt) rs

/-! ### CHANNEL_LOCK notices and locks (R78 to R87) -/

/-- A CHANNEL_LOCK notice: ENTERED 0 or LEFT 1, SOFT 0 or HARD 1, cause, coordinate (R87; 12). -/
def State.lockNotice (s : State) (m : ChannelId) (left hard : Bool) (cause : LockCause) (coord : Nat) : State :=
  s.offer .channelLock
    (byte m.val ++ byte (s.channel m).cfg.strand.val ++ byte left.toNat ++ byte hard.toNat ++
      byte (lockCauseCode cause) ++ le 4 coord)

/-- The line processor in HARD_LOCK: unseeded, all counts 0, the log kept (R84). -/
def hardLockedLp (cause : HardCause) (lp : LineProcessor) : LineProcessor :=
  { LineProcessor.initial (.hardLock cause) with log := lp.log }

/-- Entry to HARD_LOCK (R84): flush, unseed, clear the counts, record the cause, count, flag the face, notify. -/
def State.enterHardLock (s : State) (m : ChannelId) (cause : HardCause) (coord : Nat) : State :=
  ((((s.flush m).modLp m (hardLockedLp cause)).raiseChannel m .hardEntries).reportFace m fun f =>
    { f with hardLocked := true }).lockNotice m false true (hardCauseLock cause) coord

/-- The head fault report (R82): HARD_LOCK with cause HEAD from WARMUP, ACTIVE or SOFT_LOCK. -/
def State.headFault (s : State) (m : ChannelId) (coord : Nat) : State :=
  match (s.channel m).lp.state with
  | .warmup | .active | .softLock _ => s.enterHardLock m .head coord
  | .disabled | .idle | .hardLock _ => s

/-! ### One settled line -/

/-- Why an awaited line was discarded (R25, R27, R34). -/
inductive DiscardCause where
  | frameError
  | headFault
  | format
  | tagMismatch
  deriving DecidableEq, Repr

/-- The counter of a discard cause (R25, R27, R34). -/
def DiscardCause.counter : DiscardCause → ChannelCounter
  | .frameError => .frameError
  | .headFault => .headFault
  | .format => .format
  | .tagMismatch => .tagMismatch

/-- The outcome of a settlement (R34). The samples of a TAKEN line carry the marks of its invalid columns. A DISCARDED
line is handled alike whatever its cause (R77). -/
inductive LineOutcome where
  | taken (samples : List Sample)
  | missed
  | discarded (cause : DiscardCause)
  deriving DecidableEq, Repr

/-- What SLRm hands LPm for one triggered line (R34): its index k, its coordinate k × P, and its outcome. -/
structure Settlement where
  index   : Nat
  coord   : Nat
  outcome : LineOutcome
  deriving DecidableEq, Repr

/-- The line was not delivered by the link. -/
def LineOutcome.lost : LineOutcome → Bool
  | .taken _ => false
  | .missed | .discarded _ => true

/-- A TAKEN line found obscured by the test of R76. -/
def takenObscured (r : Recipe) (groups : Nat) (lp : LineProcessor) : LineOutcome → Bool
  | .taken samples => lineObscured r groups (seedingOver lp.state) lp.columns samples
  | .missed | .discarded _ => false

/-- The coverage class of a line (R89), by the state in which it is handled. -/
def coverageClass (st : ChannelState) (lost obscured : Bool) : Coverage :=
  match st with
  | .hardLock _ => .unavailable
  | .softLock _ => if lost then .unavailable else .obscured
  | .warmup => if lost then .unavailable else if obscured then .obscured else .unavailable
  | .active => if lost then .unavailable else if obscured then .obscured else .inspected
  | .disabled | .idle => .unavailable

/-- The link run after a line (R77). -/
def linkRunAfter (lost : Bool) (lp : LineProcessor) : Nat := if lost then lp.linkRun + 1 else 0

/-- The obscuration filter and the link run after a line, before the end of the line (R77 to R79). -/
def filterAfter (lost clear : Bool) (lp : LineProcessor) : LineProcessor :=
  match lp.state with
  | .warmup | .active =>
    { lp with linkRun := linkRunAfter lost lp, obscuredRun := if clear then 0 else lp.obscuredRun + 1 }
  | .softLock _ =>
    { lp with
      linkRun := linkRunAfter lost lp
      softCount := lp.softCount + 1
      clearRun := if clear then lp.clearRun + 1 else 0 }
  | .hardLock _ | .disabled | .idle => lp

/-- What the end of a line does to the channel's lock (R78 to R81). -/
inductive EndOfLine where
  | stay
  | enterSoft (left : LeftState)
  | leaveSoft (left : LeftState)
  | enterHard (cause : HardCause)
  deriving DecidableEq, Repr

/-- A lost line leaves the link run at or above missed_limit (R81). -/
def linkDead (r : Recipe) (lost : Bool) (lp : LineProcessor) : Bool := lost && decide (r.missedLimit ≤ lp.linkRun)

/-- The end of a line handled in WARMUP or ACTIVE (R78, R81). -/
def endUnlocked (r : Recipe) (lost : Bool) (lp : LineProcessor) (left : LeftState) : EndOfLine :=
  if linkDead r lost lp then .enterHard .link
  else if 3 ≤ lp.obscuredRun then .enterSoft left
  else .stay

/-- The end of a line (R78 to R81), on the counts that `filterAfter` left. LINK goes before all others (R81). -/
def endOfLine (r : Recipe) (lost : Bool) (lp : LineProcessor) : EndOfLine :=
  match lp.state with
  | .warmup => endUnlocked r lost lp .warmup
  | .active => endUnlocked r lost lp .active
  | .softLock left =>
    if linkDead r lost lp then .enterHard .link
    else if 3 ≤ lp.clearRun then .leaveSoft left
    else if r.softLockMax < lp.softCount then .enterHard .obscured
    else .stay
  | .hardLock _ | .disabled | .idle => .stay

/-- The channel state a SOFT_LOCK episode returns to (R79). -/
def leftChannelState : LeftState → ChannelState
  | .warmup => .warmup
  | .active => .active

/-- Apply the end of a line at L. -/
def State.finishLine (s : State) (m : ChannelId) (line : Nat) : EndOfLine → State
  | .stay => s
  | .enterSoft left =>
    ((s.modLp m fun lp => { lp with state := .softLock left, clearRun := 0, softCount := 0 }).raiseChannel m
      .softEntries).lockNotice m false false .obscured line
  | .leaveSoft left =>
    (s.modLp m fun lp =>
      { lp with state := leftChannelState left, obscuredRun := 0, clearRun := 0, softCount := 0 }).lockNotice m true
      false .cleared line
  | .enterHard cause => s.enterHardLock m cause line

/-- A hold hand-over of the line at L to TTm (R96, R98). -/
def State.holdTracks (s : State) (m : ChannelId) (line : Nat) (r : Recipe) : State :=
  s.modTt m (holdTable (s.strandOf m).cfg.countsPerLine line r)

/-- The arithmetic of a processed WARMUP line, and its count (R42, R45, R49). -/
def warmupLp (r : Recipe) (groups : Nat) (samples : List Sample) (lp : LineProcessor) : LineProcessor :=
  { lp with
    columns := columnsAfter r groups false samples lp.columns
    warmCount := lp.warmCount + 1
    state := if r.warmLines ≤ lp.warmCount + 1 then .active else .warmup }

/-- The arithmetic of a processed ACTIVE line (R45). -/
def activeLp (r : Recipe) (groups : Nat) (samples : List Sample) (lp : LineProcessor) : LineProcessor :=
  { lp with columns := columnsAfter r groups true samples lp.columns }

/-- The counters of an ACTIVE line's runs (R58, R59, R68, R69). -/
def State.countRuns (s : State) (m : ChannelId) (runs : LineRuns) : State :=
  ((((s.raiseChannel m .narrowRuns runs.narrow.length).raiseChannel m .wideRuns runs.wide.length).raiseChannel m .mark
    (runs.wide.length - runs.transverses.length)).raiseChannel m .transverse runs.transverses.length).raiseChannel m
    .runOverflow runs.overflow.toNat

/-- A set report sets its flag on channel m's face (R125). -/
def State.reportWhen (s : State) (m : ChannelId) (report : Bool) (g : FaceFlags → FaceFlags) : State :=
  if report then s.reportFace m g else s

/-- The counters of an association (R101, R102, R104). -/
def State.countAssociation (s : State) (m : ChannelId) (a : Association) : State :=
  ((s.raiseChannel m .tracksOpened a.opened).raiseChannel m .tracksConfirmed a.confirmed).raiseChannel m .tableFull
    a.dropped

/-- The records of one ACTIVE line reach BAn: the transverse ones in column order and the longitudinal ones in slot
order, in an order between them that R69 leaves open (log 9). -/
def State.receiveLine (s : State) (n : StrandId) (transverses longitudinals : List DefectRecord) : State :=
  let merged := mergeOpen Config.transverseFirst (transverses.length + longitudinals.length) s.draws transverses
    longitudinals
  (s.drawn merged.2).receiveAll n merged.1

/-- A processed ACTIVE line (R48, R56 to R60, R67 to R69, R96): hits against the baselines before the line, runs, the
association hand-over, and the records. -/
def State.processActive (s : State) (m : ChannelId) (line : Nat) (r : Recipe) (samples : List Sample) : State :=
  let c := s.channel m
  let st := s.strandOf m
  let gate := gateOpen st.forecasts st.cfg.markHalfWindow line
  let runs := sortRuns r gate (lineHits r c.cfg.groups samples c.lp.columns)
  let a := associate st.cfg.countsPerLine line r runs.narrow runs.wide c.tt
  let closed := a.closed.map (s.recordOf m)
  let transverses := runs.transverses.map
    (transverseRecord m c.cfg.face st.cfg.countsPerLine st.cfg.umPerCount line gate)
  let s := (s.modLp m (activeLp r c.cfg.groups samples)).modTt m fun _ => a.table
  let s := (s.countRuns m runs).countAssociation m a
  let s := s.reportWhen m runs.overflow fun f => { f with runOverflow := true }
  let s := s.reportWhen m (decide (0 < a.dropped)) fun f => { f with tableFull := true }
  (s.countEmission m r.minDefectMm closed).receiveLine c.cfg.strand transverses (closed.filter (longEnough r.minDefectMm))

/-- What a line does to the baselines and the tracks: processed when it is TAKEN and clear in WARMUP or ACTIVE (R41),
a hold otherwise (R96). -/
def State.processLine (s : State) (m : ChannelId) (line : Nat) (r : Recipe) (clear : Bool) (out : LineOutcome) : State :=
  match out, (s.channel m).lp.state with
  | .taken samples, .active => if clear then s.processActive m line r samples else s.holdTracks m line r
  | .taken samples, .warmup =>
    if clear then (s.modLp m (warmupLp r (s.channel m).cfg.groups samples)).holdTracks m line r
    else s.holdTracks m line r
  | _, _ => s.holdTracks m line r

/-- LPm handles the settlement of a line (R34, R41): the test, the filter, the coverage entry, the processing or the
hold, and the end of the line. A channel in DISABLED or IDLE receives no settlement (R37). -/
def State.handleLine (s : State) (m : ChannelId) (x : Settlement) : State :=
  let c := s.channel m
  let line := x.coord
  let out := x.outcome
  match c.lp.state, recipeAt (s.strandOf m).history line with
  | .disabled, _ => s
  | .idle, _ => s
  | _, none => s
  | st, some r =>
    let obscured := !c.hardLocked && takenObscured r c.cfg.groups c.lp out
    let clear := !out.lost && !obscured
    let lp := filterAfter out.lost clear c.lp
    let after := endOfLine r out.lost lp
    let s := s.modLp m fun _ => { lp with log := enterCoverage line (coverageClass st out.lost obscured) lp.log }
    let s := s.raiseChannel m .obscuredLines obscured.toNat
    (s.processLine m line r clear out).finishLine m line after

/-! ### Settlements by the receiver (R30 to R35) -/

/-- The await of channel m ends: QUIET, the timer stopped, and the given last expected tag (R32). -/
def State.endAwait (s : State) (m : ChannelId) (last : Option Byte) : State :=
  s.modRx m fun rx => { rx with await := .quiet, timer := none, lastExpected := last }

/-- An await of channel m ends with the settlement of its line handed to LPm, and leaves the given last expected tag
(R32, R34). -/
def State.settle (s : State) (m : ChannelId) (last : Byte) (x : Settlement) : State :=
  (s.endAwait m (some last)).handleLine m x

/-- The awaited line of channel m is settled MISSED (R30, R31); nothing happens in QUIET. -/
def State.settleMissed (s : State) (m : ChannelId) : State :=
  match (s.channel m).rx.await with
  | .quiet => s
  | .awaiting k line expected => (s.raiseChannel m .missed).settle m expected ⟨k, line, .missed⟩

/-- An await of channel m is abandoned (R35); nothing happens in QUIET. -/
def State.abandon (s : State) (m : ChannelId) : State :=
  match (s.channel m).rx.await with
  | .quiet => s
  | .awaiting _ _ _ => s.endAwait m none

end Sys2Proof.Machine
end

