-- ==== Sys2Proof/Machine/Closing.lean ====
section
/-! DEFINITION. Opening and closing billets, the report queue, and the end of a cast (07, R124, R127, R132, R139 to
R141; 01, R14; 05, R87). -/

namespace Sys2Proof.Machine

/-- A STRAND_STATE notice: strand, state, reason, H (R16; 12). -/
def State.strandNotice (s : State) (n : StrandId) (reason : StrandReason) : State :=
  let x := s.strand n
  s.offer .strandState (byte n.val ++ byte (strandStateCode x.state) ++ byte (reasonCode reason) ++ le 4 x.high)

/-! ### Opening a billet (R124) -/

/-- The channel that views face f of strand n, if one is enabled. -/
def State.viewer (s : State) (n : StrandId) (f : Face) : Option ChannelId :=
  (s.channelsOf n).find? fun m => (s.channel m).cfg.face == f

/-- The face flag entry of a billet as it opens: HARD_LOCKED for a channel in HARD_LOCK (R124). -/
def State.openFace (s : State) (n : StrandId) (f : Face) : Option FaceFlags :=
  (s.viewer n f).map fun m => ⟨false, false, (s.channel m).hardLocked⟩

/-- BAn opens a billet at a head (R124): it takes the counter's number, and the counter is raised. -/
def State.openBillet (s : State) (n : StrandId) (head : Nat) (first : Bool) : State :=
  let faces := #v[s.openFace n .faceA, s.openFace n .faceB, s.openFace n .faceC, s.openFace n .faceD]
  s.modStrand n fun x =>
    { x with
      billet := some ⟨x.billetCounter, head, first, false, false, faces⟩
      billetCounter := x.billetCounter + 1 }

/-! ### The report queue (R140, R141) -/

/-- Capacity of the report queue (R140). -/
def reportCapacity : Nat := 8

/-- A BILLET_READY notice for a report just pushed (R140; 12). -/
def State.billetReady (s : State) (rep : BilletReport) : State :=
  s.offer .billetReady
    (byte rep.strand.val ++ le 2 rep.number.toNat ++ byte (gradeCode rep.grade) ++ byte s.rq.length)

/-- The oldest report is discarded, counted REPORT_LOST and notified (R141). -/
def State.discardOldest (s : State) : State :=
  match s.rq with
  | [] => s
  | old :: rest =>
    (({ s with rq := rest }).raiseLink .reportLost).offer .reportLost
      (byte old.strand.val ++ le 2 old.number.toNat ++ byte (gradeCode old.grade))

/-- The flag PRIOR_LOSS is set on a report (R141). -/
def withPriorLoss (rep : BilletReport) : BilletReport := { rep with flags := { rep.flags with priorLoss := true } }

/-- Add a report after the last, with its notice (R140). -/
def State.addReport (s : State) (rep : BilletReport) : State := ({ s with rq := s.rq ++ [rep] }).billetReady rep

/-- Push a report: into a full queue only after the oldest is discarded, and then with PRIOR_LOSS (R140, R141). -/
def State.pushReport (s : State) (rep : BilletReport) : State :=
  if s.rq.length < reportCapacity then s.addReport rep else s.discardOldest.addReport (withPriorLoss rep)

/-! ### Closing a billet (R127 steps 3 to 7, R132) -/

/-- The face summaries of a closing billet: the faces with an enabled channel, A to D, each with the coverage below
the tail (R130, R135). -/
def State.summaries (s : State) (n : StrandId) (b : OpenBillet) (tail : Nat) (closing : List DefectRecord) :
    List FaceSummary :=
  allFaces.filterMap fun f =>
    (s.viewer n f).map fun m =>
      faceSummary f m (b.faces[faceIndex f].getD ⟨false, false, false⟩) closing
        (coverageBelow (s.strand n).cfg.countsPerLine tail (s.channel m).lp.log)

/-- The coverage log of channel m loses its lines below the tail (R130). -/
def State.takeCoverage (s : State) (pitch tail : Nat) (m : ChannelId) : State :=
  s.modLp m fun lp => { lp with log := coverageAbove pitch tail lp.log }

/-- The length bins are raised for each longitudinal record of a closing set (R139). -/
def State.countBins (s : State) (n : StrandId) (closing : List DefectRecord) : State :=
  (closing.filter isLongitudinal).foldl (fun t r => t.raiseStrand n (binCounter (binOf r.lengthMm))) s

/-- The close counters (R139). -/
def State.countClose (s : State) (n : StrandId) (g : Grade) (closing : List DefectRecord) : State :=
  ((s.raiseStrand n .billetsClosed).raiseStrand n (gradeCounter g)).countBins n closing

/-- The report of the billet open on strand n, closed at a tail with a closing set (R134). -/
def State.reportOf (s : State) (n : StrandId) (b : OpenBillet) (tail : Nat) (stopped : Bool)
    (closing : List DefectRecord) : BilletReport :=
  let x := s.strand n
  buildReport n x.cfg.umPerCount b tail stopped (entriesOver b.head tail x.history) (s.summaries n b tail closing) closing

/-- Close the open billet of strand n: coverage and recipe entries taken, report built and graded, counters raised,
report pushed (R127 steps 3 to 7). The billet is then absent. -/
def State.closeBillet (s : State) (n : StrandId) (tail : Nat) (stopped : Bool) (closing : List DefectRecord) : State :=
  match (s.strand n).billet with
  | none => s
  | some b =>
    let rep := s.reportOf n b tail stopped closing
    let s := (s.channelsOf n).foldl (fun t m => t.takeCoverage (s.strand n).cfg.countsPerLine tail m) s
    let s := s.modStrand n fun x => { x with billet := none }
    (s.countClose n rep.grade closing).pushReport rep

/-! ### End of a cast (R14, R87) -/

/-- Channel m enters IDLE, unseeded, its counts 0 and its log empty; a lock it leaves is reported (R52, R75, R87). The
notice carries the last triggered line coordinate, which R87 states for a stop; that the end of FINISHING carries it
too is a DESIGN CHOICE (log 36). -/
def State.channelToIdle (m : ChannelId) (s : State) : State :=
  let before := (s.channel m).lp.state
  let coord := (s.strandOf m).lastTrigger
  let s := s.modLp m fun _ => LineProcessor.initial .idle
  match before with
  | .softLock _ => s.lockNotice m true false .strandIdle coord
  | .hardLock _ => s.lockNotice m true true .strandIdle coord
  | .disabled | .idle | .warmup | .active => s

/-- The strand becomes IDLE: forecasts, schedule and history emptied, TRIGn low, and a STRAND_STATE notice (R14, R10,
R155). T, H, the trigger coordinates and the last cut stay. -/
def State.strandToIdle (s : State) (n : StrandId) (reason : StrandReason) : State :=
  (s.modStrand n fun x =>
    { x with
      state := .idle, forecasts := [], schedule := [], history := [], billet := none, defects := [], trig := false
      }).strandNotice n reason

/-- A stop of strand n (R14, R15, R132): awaits abandoned, tracks flushed, the billet closed at H with STOPPED from
the whole pending queue, the channels IDLE, the strand IDLE. -/
def State.stopStrand (s : State) (n : StrandId) (reason : StrandReason) : State :=
  let s := (s.channelsOf n).foldl State.abandon s
  let s := s.eachChannel n fun m t => t.flush m
  let s := s.closeBillet n (s.strand n).high true (s.strand n).defects
  let s := s.eachChannel n State.channelToIdle
  s.strandToIdle n reason

end Sys2Proof.Machine
end

