-- ==== Sys2Proof/Machine/Travel.lean ====
section
/-! DEFINITION. Encoder counting, line triggers, grade changes at a trigger, and mould strokes (01, R2 to R10; 03,
R51, R54; 04, R61 to R64; 08, R159, R160). Commands ENCODER_COUNT, BOTH_INPUTS_CHANGE, TRIG_PULSE_END, OSC_EDGE. -/

namespace Sys2Proof.Machine

/-! ### Quadrature (R2) -/

/-- The level pair after one input changes. -/
def flipInput (p : Phase) : EncInput → Phase
  | .encA => { p with a := !p.a }
  | .encB => { p with b := !p.b }

/-- The next pair of the forward cycle 00, 10, 11, 01, 00 (R2). -/
def forwardPhase : Phase → Phase
  | ⟨false, false⟩ => ⟨true, false⟩
  | ⟨true, false⟩ => ⟨true, true⟩
  | ⟨true, true⟩ => ⟨false, true⟩
  | ⟨false, true⟩ => ⟨false, false⟩

/-- A change of one input is a forward count of the strand: raw forward under +, raw reverse under − (R2). -/
def countsForward (sign : EncoderSign) (p : Phase) (input : EncInput) : Bool :=
  let raw := flipInput p input == forwardPhase p
  match sign with
  | .plus => raw
  | .minus => !raw

/-! ### Mark forecasts (R61 to R64) -/

/-- Capacity of the mark forecast queue (R61). -/
def forecastCapacity : Nat := 24

/-- H has passed a forecast by its half window and two line pitches (R64). -/
def forecastPast (cfg : StrandConfig) (high f : Nat) : Bool := decide (f + cfg.markHalfWindow + 2 * cfg.countsPerLine < high)

/-- Remove the passed forecasts from the front (R64). -/
def retireForecasts (x : Strand) : Strand := { x with forecasts := x.forecasts.dropWhile (forecastPast x.cfg x.high) }

/-! ### Grade changes (R159, R160) -/

/-- Two recipes differ in polarity or a margin, which restarts the channels (R53, R160). -/
def restartsChannels (a b : Recipe) : Bool :=
  a.polarity != b.polarity || a.leftMargin != b.leftMargin || a.rightMargin != b.rightMargin

/-- The newest recipe of a history. -/
def newestRecipe (h : List HistoryEntry) : Option Recipe := h.getLast?.map (·.recipe)

/-- The recipe in force changed in polarity or a margin. -/
def recipeChange (before after : Option Recipe) : Bool :=
  match before, after with
  | some a, some b => restartsChannels a b
  | _, _ => false

/-- One due schedule entry is applied from a VALID slot, or skipped (R159). `before` is the recipe in force for the
line before L. -/
def State.applyEntry (n : StrandId) (line : Nat) (before : Option Recipe) (s : State) (e : ScheduleEntry) : State :=
  let slot := s.slot e.slot
  match slot.content with
  | .valid r =>
    (s.modStrand n fun x => { x with history := enterHistory x.history ⟨line, e.slot, slot.revision, false, r⟩ }).offer
      .gradeApplied
      (byte n.val ++ le 4 e.coord ++ le 4 line ++ byte e.slot.val ++ le 2 slot.revision.toNat ++ r.name.toList ++
        byte (recipeChange before (some r)).toNat)
  | .empty | .writing =>
    s.offer .gradeChangeFailed
      (byte n.val ++ le 4 e.coord ++ le 4 line ++ byte e.slot.val ++ byte (slotStateCode slot.content))

/-- The due entries are removed from the front of the schedule and handled in order (R159). -/
def State.applySchedule (s : State) (n : StrandId) (line : Nat) : State :=
  let x := s.strand n
  let due := x.schedule.takeWhile fun e => decide (e.coord ≤ line)
  let s := s.modStrand n fun y => { y with schedule := y.schedule.drop due.length }
  due.foldl (State.applyEntry n line (newestRecipe x.history)) s

/-- The line processor restarted into WARMUP: unseeded, the filter at its start, link run and log kept (R51, R75). -/
def restartedLp (lp : LineProcessor) : LineProcessor :=
  { LineProcessor.initial .warmup with linkRun := lp.linkRun, log := lp.log }

/-- The window of channel m is empty under the newest recipe of its strand (R39, R83, R86). -/
def State.windowGone (s : State) (m : ChannelId) : Bool :=
  match newestRecipe (s.strandOf m).history with
  | some r => windowEmpty r (s.channel m).cfg.groups
  | none => false

/-- A channel restart at the boundary before the line at L (R51, R54): flush, unseed, WARMUP (or HARD_LOCK WINDOW
under an empty window). A channel in HARD_LOCK is not restarted. -/
def State.restartChannel (s : State) (m : ChannelId) (line : Nat) : State :=
  match (s.channel m).lp.state with
  | .disabled | .idle | .hardLock _ => s
  | .warmup | .active | .softLock _ =>
    let soft := match (s.channel m).lp.state with
      | .softLock _ => true
      | _ => false
    let s := (s.flush m).modLp m restartedLp
    if s.windowGone m then s.enterHardLock m .window line
    else if soft then s.lockNotice m true false .recipe line
    else s

/-! ### The line trigger (R8, R9, R30) -/

/-- The await of line k at L begins on channel m (R30). -/
def State.beginAwait (s : State) (m : ChannelId) (k line : Nat) : State :=
  let wait := (s.strandOf m).cfg.lineWaitUs
  s.modRx m fun rx =>
    { rx with await := .awaiting k line (BitVec.ofNat 8 k + rx.tagOffset), timer := some wait }

/-- One channel takes the trigger of line k at L: a line still awaited is MISSED, a channel restart takes place, and
the await begins (R30, R54). -/
def State.takeTrigger (k line : Nat) (restart : Bool) (m : ChannelId) (s : State) : State :=
  let s := s.settleMissed m
  let s := if restart then s.restartChannel m line else s
  s.beginAwait m k line

/-- H stands at a trigger coordinate from which a line falls due (R8): not the one beyond the last line. -/
def triggerDue (x : Strand) : Bool := x.high == x.nextTrigger && decide (x.nextTrigger + x.cfg.countsPerLine ≤ maxCoord)

/-- The strand unit's own part of a trigger (R8, R10). -/
def triggeredStrand (x : Strand) : Strand :=
  { x with lastTrigger := x.nextTrigger, nextTrigger := x.nextTrigger + x.cfg.countsPerLine, trig := true }

/-- The trigger of the line at H (R8, R9): the strand's own part, the due grade changes (R159), then each enabled
channel (R30, R160). -/
def State.lineTrigger (s : State) (n : StrandId) : State :=
  let line := (s.strand n).nextTrigger
  let k := line / (s.strand n).cfg.countsPerLine
  let before := newestRecipe (s.strand n).history
  let s := ((s.modStrand n triggeredStrand).raiseStrand n .triggers).applySchedule n line
  let restart := recipeChange before (newestRecipe (s.strand n).history)
  s.eachChannel n (State.takeTrigger k line restart)

/-- H has been raised: forecasts retire (R64) and a line due is triggered (R8). -/
def State.highRaised (s : State) (n : StrandId) : State :=
  let s := s.modStrand n retireForecasts
  if triggerDue (s.strand n) then s.lineTrigger n else s

/-! ### Counts (R3 to R5) -/

/-- A forward count in CASTING or FINISHING (R4, R5). -/
def State.forwardCount (s : State) (n : StrandId) : State :=
  let x := s.strand n
  if maxCoord ≤ x.travel then s.stopStrand n .travelEnd
  else if x.high < x.travel + 1 then
    (s.modStrand n fun y => { y with travel := y.travel + 1, high := y.travel + 1 }).highRaised n
  else s.modStrand n fun y => { y with travel := y.travel + 1 }

/-- A reverse count in CASTING or FINISHING (R3). -/
def State.reverseCount (s : State) (n : StrandId) : State :=
  if (s.strand n).travel = 0 then s.raiseStrand n .reverseAtZero
  else s.modStrand n fun y => { y with travel := y.travel - 1 }

/-- One encoder count: the phase follows the pair, and a casting strand counts (R2). -/
def State.encoderCount (s : State) (n : StrandId) (input : EncInput) : State :=
  let x := s.strand n
  let s := s.modStrand n fun y => { y with phase := flipInput y.phase input }
  match x.state with
  | .idle => s
  | .casting | .finishing => if countsForward x.cfg.sign x.phase input then s.forwardCount n else s.reverseCount n

/-- ENCODER_COUNT (R2 to R5). -/
def execEncoderCount (n : StrandId) (input : EncInput) (s : State) : Host.Outcome State Fault Refusal :=
  .next (whileRunning s fun s => s.encoderCount n input)

/-- BOTH_INPUTS_CHANGE (R2): the phase is updated and nothing is counted. -/
def execBothInputsChange (n : StrandId) (s : State) : Host.Outcome State Fault Refusal :=
  .next (whileRunning s fun s => s.modStrand n fun x => { x with phase := ⟨!x.phase.a, !x.phase.b⟩ })

/-- TRIG_PULSE_END (R10): TRIGn is driven low. -/
def execTrigPulseEnd (n : StrandId) (s : State) : Host.Outcome State Fault Refusal :=
  .next (whileRunning s fun s => s.modStrand n fun x => { x with trig := false })

/-- A mould stroke in CASTING or FINISHING (R62, R63). -/
def State.mouldStroke (s : State) (n : StrandId) : State :=
  let x := s.strand n
  if x.forecasts.length < forecastCapacity then
    (s.modStrand n fun y => { y with forecasts := y.forecasts ++ [y.high + y.cfg.mouldToSensor] }).raiseStrand n
      .forecasts
  else (s.raiseStrand n .forecastDrop).modBillet n fun b => { b with forecastLost := true }

/-- OSC_EDGE (R62, R63): ignored while the strand is IDLE. The reference level of the input is high (R21). -/
def execOscEdge (n : StrandId) (s : State) : Host.Outcome State Fault Refusal :=
  .next (whileRunning s fun s =>
    let t := s.modStrand n fun x => { x with oscLevel := true }
    match (s.strand n).state with
    | .idle => t
    | .casting | .finishing => t.mouldStroke n)

end Sys2Proof.Machine
end

