-- ==== Sys2Proof/Machine/Cuts.lean ====
section
/-! DEFINITION. Cuts (01, R17 to R19; 06, R113 to R118; 07, R127 to R133). Command CUT_EDGE, and the cut that
CUT_STRAND requests. -/

namespace Sys2Proof.Machine

/-- The cut coordinate K (R17). -/
def cutCoord (x : Strand) : Nat := x.high - x.cfg.torchOffset

/-- The outcome of a cut, tested in the order of R18. -/
def cutOutcome (x : Strand) : CutOutcome :=
  if x.state = .idle then .cutIdle
  else if x.high < x.cfg.torchOffset then .cutEarly
  else if cutCoord x ≤ x.lastCut + x.cfg.countsPerLine then .doubleCut
  else .accepted

/-- The split of track table m at K (R113 to R117): the state after it. The records go to the closing set, not to the
pending queue. -/
def State.splitTracks (s : State) (m : ChannelId) (k : Nat) : State :=
  let cfg := (s.strandOf m).cfg
  let tt := expireForCut cfg.countsPerLine (s.channel m).tt
  let rs := cutRecords m (s.channel m).cfg.face cfg.countsPerLine cfg.umPerCount k tt.slots
  (s.modTt m fun _ => { tt with slots := cutSlots cfg.countsPerLine k tt.slots }).countEmission m (lastMinDefect tt) rs

/-- The records that the split of track table m at K hands to BAn (R114, R116). -/
def State.splitRecords (s : State) (m : ChannelId) (k : Nat) : List DefectRecord :=
  let cfg := (s.strandOf m).cfg
  let tt := expireForCut cfg.countsPerLine (s.channel m).tt
  (cutRecords m (s.channel m).cfg.face cfg.countsPerLine cfg.umPerCount k tt.slots).filter (longEnough (lastMinDefect tt))

/-- The closing set of a cut at K: the splits channel by channel in ascending number (R128), then the records and
lower pieces of the pending queue in queue order (R129). -/
def State.closingSet (s : State) (n : StrandId) (k : Nat) : List DefectRecord :=
  (s.channelsOf n).flatMap (fun m => s.splitRecords m k) ++
    (s.strand n).defects.filterMap (movedPart (s.strand n).cfg.umPerCount k)

/-- The pending queue loses what the partition moves (R129). -/
def partitionQueue (k : Nat) (x : Strand) : Strand :=
  { x with defects := x.defects.filterMap (keptPart x.cfg.umPerCount k) }

/-- The records beyond the cut that ends FINISHING are counted TAIL_DISCARDED and removed (R133). -/
def State.discardTail (s : State) (n : StrandId) : State :=
  (s.raiseStrand n .tailDiscarded (s.strand n).defects.length).modStrand n fun x => { x with defects := [] }

/-- The end of the cast at the cut that ends FINISHING (R133, R118, R35): the tail discarded, awaits abandoned, tracks
discarded, channels IDLE, the strand IDLE with reason FINISHED. -/
def State.endFinishing (s : State) (n : StrandId) : State :=
  let s := s.discardTail n
  let s := (s.channelsOf n).foldl (fun t m => (t.abandon m).modTt m freeTable) s
  let s := s.eachChannel n State.channelToIdle
  s.strandToIdle n .finished

/-- The strand's part of an accepted cut (R19). -/
def State.takeCut (s : State) (n : StrandId) (k : Nat) : State :=
  (s.raiseStrand n .cutsAccepted).modStrand n fun x => { x with lastCut := k }

/-- The steps of an accepted cut at K up to the closed billet (R19, R127): splits, partition, coverage, recipe
entries, report, and the history entries wholly below K dropped. -/
def State.closeAtCut (s : State) (n : StrandId) (k : Nat) : State :=
  let s := s.takeCut n k
  let closing := s.closingSet n k
  let s := (s.channelsOf n).foldl (fun t m => t.splitTracks m k) s
  let s := s.modStrand n (partitionQueue k)
  let s := s.closeBillet n k false closing
  s.modStrand n fun x => { x with history := dropEntriesBelow k x.history }

/-- An accepted cut at K (R19, R127): the billet closed, then the next billet or the end of the cast. -/
def State.acceptCut (s : State) (n : StrandId) (k : Nat) : State :=
  let s := s.closeAtCut n k
  match (s.strand n).state with
  | .finishing => s.endFinishing n
  | .casting | .idle => s.openBillet n k false

/-- A cut, from the input or from a request (R17 to R19). -/
def State.cut (s : State) (n : StrandId) : State :=
  match cutOutcome (s.strand n) with
  | .cutIdle => s.raiseStrand n .cutIdle
  | .cutEarly => s.raiseStrand n .cutEarly
  | .doubleCut => s.raiseStrand n .doubleCut
  | .accepted => s.acceptCut n (cutCoord (s.strand n))

/-- CUT_EDGE (R17). The reference level of the input is high (R21). -/
def execCutEdge (n : StrandId) (s : State) : Host.Outcome State Fault Refusal :=
  .next (whileRunning s fun s => (s.modStrand n fun x => { x with cutLevel := true }).cut n)

end Sys2Proof.Machine
end

