-- ==== Sys2Proof/Machine/Intake.lean ====
section
/-! DEFINITION. The scan link receivers (02). Commands SYNC_PAIR, SCAN_FRAME, SCAN_GAP_TIMEOUT, LINE_WAIT_EXPIRY. -/

namespace Sys2Proof.Machine

/-- A frame is counted under a discard cause, and the await of channel m, if one is open, ends with its line settled
DISCARDED with that cause (R25, R32). -/
def State.discard (s : State) (m : ChannelId) (cause : DiscardCause) : State :=
  let s := s.raiseChannel m cause.counter
  match (s.channel m).rx.await with
  | .quiet => s
  | .awaiting k line expected => s.settle m expected ⟨k, line, .discarded cause⟩

/-- The coordinate at which a head fault locks: the awaited line's, or the last triggered line's in QUIET (R84). -/
def State.faultCoord (s : State) (m : ChannelId) : Nat :=
  match (s.channel m).rx.await with
  | .quiet => (s.strandOf m).lastTrigger
  | .awaiting _ line _ => line

/-- A channel's frames are classified by R25 while it is enabled and its strand casts; otherwise they are STRAY (R24).
-/
def State.inCast (s : State) (m : ChannelId) : Bool := (s.channel m).cfg.enabled && (s.strandOf m).state != .idle

/-- A framing failure is classified: STRAY outside a cast, and otherwise FRAME_ERROR, which discards the awaited line
(R24, R25 check 1). -/
def State.framingFailure (s : State) (m : ChannelId) : State :=
  if s.inCast m then s.discard m .frameError else s.raiseChannel m .stray

/-- A frame equal to the expected tag is taken (R33): the group checks, the counters, and line k settled TAKEN. -/
def State.takeLine (s : State) (m : ChannelId) (k line : Nat) (expected : Byte) (f : ScanFrame) : State :=
  ((s.raiseChannel m .groupCheck (failingGroups f)).raiseChannel m .linesTaken).settle m expected
    ⟨k, line, .taken (frameSamples f)⟩

/-- A TAG_RESYNC notice: channel, strand, coordinate, received tag, old offset, new offset (R28; 12). -/
def State.resyncNotice (s : State) (m : ChannelId) (line : Nat) (received old new : Byte) : State :=
  s.offer .tagResync
    (byte m.val ++ byte (s.channel m).cfg.strand.val ++ le 4 line ++ [received, old, new])

/-- A tag mismatch while awaiting line k (R27, R28): the line DISCARDED, the offset resynchronised, the notice (in this
order by log 12). -/
def State.tagMismatch (s : State) (m : ChannelId) (k line : Nat) (received : Byte) : State :=
  let old := (s.channel m).rx.tagOffset
  let new := received - BitVec.ofNat 8 k
  let s := (s.raiseChannel m DiscardCause.tagMismatch.counter).settle m received ⟨k, line, .discarded .tagMismatch⟩
  let s := s.modRx m fun rx => { rx with tagOffset := new }
  s.resyncNotice m line received old new

/-- The tag test (R27 while AWAITING, R29 while QUIET). -/
def State.testTag (s : State) (m : ChannelId) (f : ScanFrame) : State :=
  let rx := (s.channel m).rx
  match rx.await with
  | .awaiting k line expected =>
    if f.header.tag = expected then s.takeLine m k line expected f
    else if f.header.tag = expected - 1 then s.raiseChannel m .late
    else s.tagMismatch m k line f.header.tag
  | .quiet => if rx.lastExpected = some f.header.tag then s.raiseChannel m .late else s.raiseChannel m .stray

/-- A complete frame with a good CRC is classified (R24, R25 checks 2 to 5). -/
def State.classify (s : State) (m : ChannelId) (f : ScanFrame) : State :=
  let cfg := (s.channel m).cfg
  if !s.inCast m then s.raiseChannel m .stray
  else if f.header.headId ≠ cfg.headId then s.raiseChannel m .stray
  else if f.header.status.getLsbD 0 then
    (s.discard m .headFault).headFault m (s.faultCoord m)
  else if f.header.groups.toNat ≠ cfg.groups then s.discard m .format
  else s.testTag m f

/-- The receiver of channel m returns to HUNTING (R23). -/
def State.hunt (s : State) (m : ChannelId) : State := s.modRx m fun rx => { rx with framing := .hunting }

/-- SYNC_PAIR (R23): a HUNTING receiver that sees the sync pair and a header that delimits the frame becomes
RECEIVING. -/
def execSyncPair (m : ChannelId) (h : ScanHeader) (s : State) : Host.Outcome State Fault Refusal :=
  .next (whileRunning s fun s =>
    match (s.channel m).rx.framing with
    | .hunting => if groupsDelimit h then s.modRx m fun rx => { rx with framing := .receiving h } else s
    | .receiving _ => s)

/-- The bytes of a frame are those the receiver is collecting: the header it took, and the length that it fixed. -/
def frameInReception (h : ScanHeader) (f : ScanFrame) : Bool :=
  f.header == h && f.groupBytes.length == 13 * h.groups.toNat

/-- SCAN_FRAME (R23, R25): a frame completes, or fails by its CRC, in RECEIVING; or its header cannot delimit it, in
HUNTING. Bytes that are no frame in reception are passed over (R23; log 5). -/
def execScanFrame (m : ChannelId) (f : ScanFrame) (s : State) : Host.Outcome State Fault Refusal :=
  .next (whileRunning s fun s =>
    match (s.channel m).rx.framing with
    | .hunting => if groupsDelimit f.header then s else s.framingFailure m
    | .receiving h =>
      if frameInReception h f then
        if scanCrc f = f.crc then (s.hunt m).classify m f else (s.hunt m).framingFailure m
      else s)

/-- SCAN_GAP_TIMEOUT (R23): the frame ends with a framing failure. A gap in the header finds the receiver still
HUNTING, a later one RECEIVING (log 6). -/
def execScanGapTimeout (m : ChannelId) (inHeader : Bool) (s : State) : Host.Outcome State Fault Refusal :=
  .next (whileRunning s fun s =>
    match (s.channel m).rx.framing with
    | .hunting => if inHeader then s.framingFailure m else s
    | .receiving _ => if inHeader then s else (s.hunt m).framingFailure m)

/-- LINE_WAIT_EXPIRY (R31): line k, if it is still awaited, is settled MISSED. The stale timer of another line has no
effect (R36; log 4). -/
def execLineWaitExpiry (m : ChannelId) (k : Nat) (s : State) : Host.Outcome State Fault Refusal :=
  .next (whileRunning s fun s =>
    match (s.channel m).rx.await with
    | .quiet => s
    | .awaiting k' _ _ => if k = k' then s.settleMissed m else s)

end Sys2Proof.Machine
end

