-- ==== Sys2Proof/Machine/Layouts.lean ====
section
/-! DEFINITION. The byte layouts of reports, snapshots and status replies (12; R121, R170, R171, R187). -/

namespace Sys2Proof.Machine

/-- An optional item: a presence byte, then its bytes, all 0 when absent (R187). -/
def optional (width : Nat) : Option (List Byte) → List Byte
  | some bytes => byte 1 ++ bytes
  | none => byte 0 ++ List.replicate width 0

/-- A list: a count byte, then its entries (12). -/
def counted {α : Type} (f : α → List Byte) (xs : List α) : List Byte := byte xs.length ++ xs.flatMap f

/-- A recipe record, 37 bytes (12). -/
def recipeBytes (r : Recipe) : List Byte :=
  r.name.toList ++ byte (polarityCode r.polarity) ++ byte r.leftMargin ++ byte r.rightMargin ++ byte r.shiftK ++
    le 2 r.hitThreshold ++ byte r.runBridge ++ byte r.narrowMax ++ le 2 r.markCrack ++ byte r.warmLines ++
    byte r.obscurePct ++ le 2 r.softLockMax ++ byte r.missedLimit ++ byte r.gate ++ byte r.confirmLines ++
    byte r.gapMax ++ le 2 r.minDefectMm ++ le 2 r.rejectSingle ++ le 2 r.rejectTotal ++ le 2 r.conditionSingle ++
    byte r.conditionCount ++ byte r.transReject ++ byte r.coverageMin

/-- A report recipe entry, 16 bytes (12). -/
def entryBytes (e : ReportEntry) : List Byte :=
  le 4 e.coord ++ byte e.slot.val ++ le 2 e.revision.toNat ++ e.name.toList ++ byte e.merged.toNat

/-- A face summary, 33 bytes (12). -/
def faceBytes (f : FaceSummary) : List Byte :=
  byte (faceCode f.face) ++ byte f.channel.val ++ byte (faceFlagBits f.flags) ++ le 2 f.longCount ++ le 2 f.totalMm ++
    le 2 f.longestMm ++ f.bins.toList.flatMap (le 2) ++ le 2 f.transCount ++ le 4 f.inspected ++ le 4 f.obscured ++
    le 4 f.unavailable

/-- Mean peak, hit lines and gap lines of a record; 0 for a transverse one (R187). -/
def kindBytes : RecordKind → List Byte
  | .longitudinal mean hits gaps => le 2 mean ++ le 2 hits ++ le 2 gaps
  | .transverse => le 2 0 ++ le 2 0 ++ le 2 0

/-- A defect record, 24 bytes (12). -/
def recordBytes (r : DefectRecord) : List Byte :=
  byte (kindCode r.kind) ++ byte r.channel.val ++ byte (faceCode r.face) ++ byte (recordFlagBits r) ++ le 4 r.start ++
    le 4 r.stop ++ le 2 r.lengthMm ++ byte r.firstCol ++ byte r.lastCol ++ le 2 r.peak ++ kindBytes r.kind

/-- The limits in the report header (12). -/
def limitBytes (l : Limits) : List Byte :=
  le 2 l.rejectSingle ++ le 2 l.rejectTotal ++ le 2 l.conditionSingle ++ byte l.conditionCount ++ byte l.transReject ++
    byte l.coverageMin

/-- A billet report, 27 + 16n + 33f + 24r bytes (12). -/
def reportBytes (rep : BilletReport) : List Byte :=
  byte rep.strand.val ++ le 2 rep.number.toNat ++ le 4 rep.head ++ le 4 rep.tail ++ le 2 rep.lengthMm ++
    byte (gradeCode rep.grade) ++ byte (billetFlagBits rep.flags) ++ limitBytes rep.limits ++ byte rep.entries.length ++
    byte rep.faces.length ++ byte rep.records.length ++ rep.entries.flatMap entryBytes ++ rep.faces.flatMap faceBytes ++
    rep.records.flatMap recordBytes

/-- A track slot, 24 bytes; all 0 when FREE (12, R187). -/
def trackBytes : Option Track → List Byte
  | none => List.replicate 24 0
  | some t =>
    byte (trackStateCode t.state) ++ byte t.continued.toNat ++ le 4 t.start ++ le 4 t.last ++ byte t.centre ++
      byte t.minCol ++ byte t.maxCol ++ le 2 t.hitLines ++ le 4 t.peakSum ++ le 2 t.peakMax ++ byte t.missRun ++
      le 2 t.gapLines

/-- The track snapshot of channel m, 393 bytes (R121; 12). -/
def State.snapshotBytes (s : State) (m : ChannelId) : List Byte :=
  let c := s.channel m
  byte m.val ++ byte c.cfg.strand.val ++ byte (faceCode c.cfg.face) ++ byte (channelStateCode c.lp.state) ++
    optional 4 (c.tt.lastLine.map fun l => le 4 l.coord) ++ c.tt.slots.toList.flatMap trackBytes

/-- A counter group, 4 bytes a counter (R180). -/
def counterBytes (cs : List Counter) : List Byte := cs.flatMap fun c => le 4 c.toNat

/-- GET_INFO after the result code (R170; 12). -/
def State.infoBytes (s : State) : List Byte :=
  le 2 0xEC0D ++ le 2 0x5C48 ++ le 2 0x0001 ++ byte 4 ++ byte 8 ++ byte 4 ++ byte 32 ++ byte 16 ++ byte 8 ++ byte 4 ++
    byte 16 ++ byte s.hli.lineRate.toNat ++ byte (causeCode s.sup.lastCause) ++ s.sup.counts.toList.flatMap byte

/-- PART items (R171, R187): the free entries as they stand with the reply's entry reserved. -/
def State.partBytes (s : State) : List Byte :=
  byte s.attn.toNat ++ byte s.rq.length ++ byte s.hli.buffer.length ++ byte (s.freeOutput - 1) ++ [s.hli.mask]

/-- A strand configuration without the leading number, 17 bytes (12). -/
def strandConfigBytes (c : StrandConfig) : List Byte :=
  le 2 c.umPerCount ++ le 2 c.countsPerLine ++ le 4 c.mouldToSensor ++ le 2 c.markHalfWindow ++ le 4 c.torchOffset ++
    le 2 c.lineWaitUs ++ byte (signCode c.sign)

/-- The flag byte of a face of an open billet, 0 for a face with no enabled channel (12). -/
def openFaceByte (f : Option FaceFlags) : List Byte := byte ((f.map faceFlagBits).getD 0)

/-- The open billet's items, 12 bytes (R145; 12). -/
def openBilletBytes (x : Strand) (b : OpenBillet) : List Byte :=
  le 2 b.number.toNat ++ le 4 b.head ++ byte (openFlagBits b) ++ b.faces.toList.flatMap openFaceByte ++
    byte x.defects.length

/-- STRAND items (R171, R187). -/
def strandBytes (x : Strand) : List Byte :=
  strandConfigBytes x.cfg ++ byte (strandStateCode x.state) ++ le 4 x.travel ++ le 4 x.high ++ le 4 x.nextTrigger ++
    le 4 x.lastTrigger ++ le 4 x.lastCut ++ byte x.forecasts.length ++ optional 8 (x.forecasts.head?.map (le 8)) ++
    counted (fun e => le 4 e.coord ++ byte e.slot.val) x.schedule ++
    counted (fun e => entryBytes (reportEntry e)) x.history ++ optional 12 (x.billet.map (openBilletBytes x)) ++
    le 2 x.billetCounter.toNat

/-- A channel configuration without the leading number, 5 bytes (12). -/
def channelConfigBytes (c : ChannelConfig) : List Byte :=
  byte c.enabled.toNat ++ byte c.strand.val ++ byte (faceCode c.face) ++ [c.headId] ++ byte c.groups

/-- The seeded columns within the window of the recipe in force at the last triggered line; 0 in DISABLED, IDLE and
HARD_LOCK (R55). -/
def State.seededCount (s : State) (m : ChannelId) : Nat :=
  let c := s.channel m
  match c.lp.state, recipeAt (s.strandOf m).history (s.strandOf m).lastTrigger with
  | .disabled, _ | .idle, _ | .hardLock _, _ | _, none => 0
  | _, some r => seededInWindow r c.cfg.groups c.lp.columns

/-- The state left for SOFT_LOCK with the soft-lock line count, while SOFT_LOCK (R94). -/
def softBytes (lp : LineProcessor) : Option (List Byte) :=
  match lp.state with
  | .softLock left => some (byte (leftCode left) ++ le 2 lp.softCount)
  | _ => none

/-- The hard-lock cause, while HARD_LOCK (R94). -/
def causeBytes (lp : LineProcessor) : Option (List Byte) :=
  match lp.state with
  | .hardLock cause => some (byte (lockCauseCode (hardCauseLock cause)))
  | _ => none

/-- Await state code and expected tag (R22, R171; 12). -/
def awaitBytes : Await → List Byte
  | .quiet => byte 0 ++ optional 1 none
  | .awaiting _ _ expected => byte 1 ++ optional 1 (some [expected])

/-- CHANNEL items (R171, R187). -/
def State.channelBytes (s : State) (m : ChannelId) : List Byte :=
  let c := s.channel m
  channelConfigBytes c.cfg ++ byte (channelStateCode c.lp.state) ++ byte c.lp.warmCount ++ le 2 (s.seededCount m) ++
    optional 3 (softBytes c.lp) ++ optional 1 (causeBytes c.lp) ++ byte c.lp.linkRun ++ byte c.lp.log.length ++
    awaitBytes c.rx.await ++ optional 1 (c.rx.lastExpected.map fun t => [t]) ++ [c.rx.tagOffset]

/-- The name of a slot, 8 zero bytes unless it is VALID (12). -/
def slotName : SlotContent → List Byte
  | .valid r => r.name.toList
  | .empty | .writing => List.replicate 8 0

/-- A store slot, 12 bytes (12). -/
def slotBytes (x : Slot) : List Byte :=
  byte (slotStateCode x.content) ++ byte x.frozen.toNat ++ le 2 x.revision.toNat ++ slotName x.content

/-- The slot byte of the operation in flight: 0xFF for CLEAR, 0 for none (12). -/
def opSlot : StoreOp → Nat
  | .none => 0
  | .store i _ => i.val
  | .freeze i => i.val
  | .clear => 0xFF

/-- STORE items (R171, R187). -/
def storeBytes (st : Store) : List Byte := counted slotBytes st.slots.toList ++ byte (opCode st.op) ++ byte (opSlot st.op)

end Sys2Proof.Machine
end

