-- ==== Sys2Proof/Machine/HostLink.lean ====
section
/-! DEFINITION. The host link (09): receiving and sending frames, taking requests, and the link's own requests.
Commands START_BYTE, HOST_FRAME, HOST_FRAME_BAD, HOST_GAP_TIMEOUT, UNKNOWN_KIND, GET_INFO, GET_STATUS, GET_TRACKS,
GET_STATS, TAKE_BILLET, SET_NOTICES, RESTART. -/

namespace Sys2Proof.Machine

/-! ### Receiving (R164, R165) -/

/-- Capacity of the receive buffer (R165). -/
def bufferCapacity : Nat := 4

/-- A complete frame is offered to the receive buffer (R165). -/
def State.acceptFrame (s : State) (f : HostFrame) : State :=
  if s.hli.buffer.length < bufferCapacity then
    (s.modHli fun h => { h with buffer := h.buffer ++ [f] }).raiseLink .framesGood
  else s.raiseLink .overrun

/-- The host receiver takes a state. -/
def State.setHostRx (s : State) (rx : HostRx) : State := s.modHli fun h => { h with rx := rx }

/-- The frame in reception, if there is one, is abandoned and counted, and the receiver goes on in the state given
(R164). -/
def State.abandonFrame (s : State) (rx : HostRx) : State :=
  match s.hli.rx with
  | .hunting => s
  | .receiving _ => (s.setHostRx rx).raiseLink .framesBad

/-- What the receiver makes of bytes it examines while HUNTING: they are passed over up to a start byte, and the bytes
behind it belong to the frame that it begins (R164). -/
def huntOver : List Byte → HostRx
  | [] => .hunting
  | b :: rest => if b = 0xA5#8 then .receiving rest else huntOver rest

/-- The greatest body length of a host frame (R164). -/
def maxHostBody : Nat := 1020

/-- The frame in reception has announced a body length above 1020: it is abandoned, and the receiver hunts from the
byte after the start byte, over the two bytes of the length (R164). -/
def State.abandonOverLength (s : State) (length : Nat) : State := s.abandonFrame (huntOver (le 2 length))

/-- The bytes, length first, are those of the frame in reception: they begin with the ones already received. -/
def State.hostReceives (s : State) (bytes : List Byte) : Bool :=
  match s.hli.rx with
  | .hunting => false
  | .receiving got => got.isPrefixOf bytes

/-- The bytes of a host frame that its CRC covers (R164). -/
def hostFrameBytes (f : HostFrame) : List Byte := le 2 f.body.length ++ [f.kind, f.tag] ++ f.body

/-- START_BYTE (R164): the receiver, HUNTING, sees 0xA5. While RECEIVING the byte is one of the frame's. -/
def execStartByte (s : State) : Host.Outcome State Fault Refusal :=
  .next (whileRunning s fun s =>
    match s.hli.rx with
    | .hunting => s.setHostRx (.receiving [])
    | .receiving _ => s)

/-- HOST_FRAME (R164, R165): the frame in reception completes; with a bad length or CRC it is abandoned instead. Bytes
that are not those of the frame in reception change nothing (log 7). -/
def execHostFrame (f : HostFrame) (crc : BitVec 16) (s : State) : Host.Outcome State Fault Refusal :=
  .next (whileRunning s fun s =>
    if s.hostReceives (hostFrameBytes f) then
      if maxHostBody < f.body.length then s.abandonOverLength f.body.length
      else if hostCrc f.kind f.tag f.body = crc then (s.setHostRx .hunting).acceptFrame f
      else s.abandonFrame .hunting
    else s)

/-- HOST_FRAME_BAD (R163, R164): the frame in reception is abandoned and counted. -/
def execHostFrameBad (why : BadHostFrame) (s : State) : Host.Outcome State Fault Refusal :=
  .next (whileRunning s fun s =>
    match why with
    | .characterError received => if isCharacterError received then s.abandonFrame .hunting else s
    | .badCrc => s.abandonFrame .hunting
    | .overLength length =>
      if maxHostBody < length.toNat && s.hostReceives (le 2 length.toNat) then s.abandonOverLength length.toNat else s)

/-- HOST_GAP_TIMEOUT (R164). -/
def execHostGapTimeout (s : State) : Host.Outcome State Fault Refusal :=
  .next (whileRunning s fun s => s.abandonFrame .hunting)

/-! ### Taking requests (R166, R167) -/

/-- A request may be taken: none is in hand, RESTART is not pending, and an output entry is free (R166). -/
def State.mayTake (s : State) : Bool :=
  s.running && s.hli.inHand.isNone && !s.hli.restartPending && decide (1 ≤ s.freeOutput)

/-- Taking removes the oldest frame from the buffer and makes it the request in hand (R166). -/
def State.take (s : State) (f : HostFrame) : State :=
  s.modHli fun h => { h with buffer := h.buffer.drop 1, inHand := some f }

/-- The reply: the kind plus 0x80 and the tag of the request (R167), placed in the output queue (R166). -/
def State.reply (s : State) (f : HostFrame) (body : List Byte) : State :=
  s.modHli fun h => { h with output := h.output ++ [⟨f.kind + 0x80, f.tag, body⟩] }

/-- The request has been handled. -/
def State.release (s : State) : State := s.modHli fun h => { h with inHand := none }

/-- What a request comes to: the body of its reply, and its effect with the notices it forms, which follow the reply
(R166). -/
structure Handled where
  body   : List Byte
  effect : State → State

/-- A refusal: the result code alone, and no effect (R166, R167). -/
def refuse (c : ResultCode) : Handled := ⟨byte (resultCode c), id⟩

/-- A taken request: OK, the bytes after the result code, and the effect. -/
def granted (more : List Byte) (effect : State → State) : Handled := ⟨byte (resultCode .ok) ++ more, effect⟩

/-- The taken frame is answered and handled whole (R166). -/
def State.handled (s : State) (f : HostFrame) (h : Handled) : State := (h.effect ((s.take f).reply f h.body)).release

/-- The request in the oldest waiting frame, when it may be taken and its kind is the given one: the length check
(R167), then the owning rule's own checks. -/
def State.request (s : State) (kind length : Nat) (h : List Byte → State → Handled) : State :=
  match s.hli.buffer with
  | [] => s
  | f :: _ =>
    if s.mayTake && f.kind == BitVec.ofNat 8 kind then
      if f.body.length = length then s.handled f (h f.body (s.take f)) else s.handled f (refuse .badLength)
    else s

/-- The twenty request kinds are 0x01 to 0x14 (12). -/
def isRequestKind (kind : Byte) : Bool := decide (1 ≤ kind.toNat) && decide (kind.toNat ≤ 20)

/-- UNKNOWN_KIND (R167). -/
def execUnknownKind (s : State) : Host.Outcome State Fault Refusal :=
  .next (match s.hli.buffer with
    | [] => s
    | f :: _ => if s.mayTake && !isRequestKind f.kind then s.handled f (refuse .unknownKind) else s)

/-! ### Requests that read (R121, R170, R171, R180) -/

/-- GET_INFO (R170). -/
def execGetInfo (s : State) : Host.Outcome State Fault Refusal :=
  .next (s.request 0x01 0 fun _ t => granted t.infoBytes id)

/-- The items of a scope (R171). -/
def State.scopeBytes (s : State) (scope number : Nat) : Option (List Byte) :=
  match scope with
  | 0 => some s.partBytes
  | 1 => (inRange 4 number).map fun n => strandBytes (s.strand n)
  | 2 => (inRange 8 number).map fun m => s.channelBytes m
  | 3 => some (storeBytes s.store)
  | _ => none

/-- GET_STATUS (R171). -/
def execGetStatus (s : State) : Host.Outcome State Fault Refusal :=
  .next (s.request 0x02 2 fun b t =>
    match t.scopeBytes (byteAt b 0) (byteAt b 1) with
    | some items => granted items id
    | none => refuse .badArgument)

/-- GET_TRACKS (R121). -/
def execGetTracks (s : State) : Host.Outcome State Fault Refusal :=
  .next (s.request 0x11 1 fun b t =>
    match inRange 8 (byteAt b 0) with
    | some m => granted (t.snapshotBytes m) id
    | none => refuse .badArgument)

/-- A counter group: its counters in table order, and the zeroing of the whole group (R180). -/
structure Group where
  counters : List Counter
  clear    : State → State

/-- The group a GET_STATS names (R180). -/
def State.group (s : State) (group number : Nat) : Option Group :=
  match group with
  | 0 => (inRange 8 number).map fun m =>
      ⟨(s.channel m).stats.toList, fun t => t.modChannel m fun c => { c with stats := Vector.replicate 22 0 }⟩
  | 1 => (inRange 4 number).map fun n =>
      ⟨(s.strand n).stats.toList, fun t => t.modStrand n fun x => { x with stats := Vector.replicate 20 0 }⟩
  | 2 => some ⟨s.linkStats.toList, fun t => { t with linkStats := Vector.replicate 5 0 }⟩
  | _ => none

/-- GET_STATS (R180): with the clear flag set, read and zeroing are one action. -/
def execGetStats (s : State) : Host.Outcome State Fault Refusal :=
  .next (s.request 0x12 3 fun b t =>
    match t.group (byteAt b 0) (byteAt b 1), switchOf (byteAt b 2) with
    | some g, some clear => granted (counterBytes g.counters) (if clear then g.clear else id)
    | _, _ => refuse .badArgument)

/-! ### Requests that act on the link and the report queue (R169, R173, R174) -/

/-- TAKE_BILLET (R173). -/
def execTakeBillet (s : State) : Host.Outcome State Fault Refusal :=
  .next (s.request 0x10 0 fun _ t =>
    match t.rq with
    | [] => refuse .empty
    | rep :: rest => granted (reportBytes rep) fun u => { u with rq := rest })

/-- SET_NOTICES (R169): the reply carries the mask that stood before. -/
def execSetNotices (s : State) : Host.Outcome State Fault Refusal :=
  .next (s.request 0x13 1 fun b t => granted [t.hli.mask] fun u => u.modHli fun h => { h with mask := b.getD 0 0 })

/-- RESTART (R174): OK, and restart pending is set. -/
def execRestart (s : State) : Host.Outcome State Fault Refusal :=
  .next (s.request 0x14 0 fun _ _ => granted [] fun u => u.modHli fun h => { h with restartPending := true })

end Sys2Proof.Machine
end

