-- ==== Sys2Proof/Machine/Requests.lean ====
section
/-! DEFINITION. Requests on strands and channels. Commands SET_STRAND (R1), SET_CHANNEL (R172), START_STRAND (R11,
R12), FINISH_STRAND (R13), STOP_STRAND (R14), CUT_STRAND (R17), SCHEDULE_GRADE (R157), CLEAR_SCHEDULE (R158),
RELEASE_CHANNEL (R86). -/

namespace Sys2Proof.Machine

/-- Strand n is IDLE. -/
def State.strandIdle (s : State) (n : StrandId) : Bool := (s.strand n).state == .idle

/-! ### Configuration -/

/-- SET_STRAND handled (R1). -/
def handleSetStrand (b : List Byte) (s : State) : Handled :=
  match inRange 4 (byteAt b 0), signOf (byteAt b 17) with
  | some n, some sign =>
    if s.strandIdle n then
      let raw := receivedStrandConfig b sign
      let cfg := clampStrandConfig raw
      granted (byte (clampMask (strandNumbers raw) (strandNumbers cfg))) fun t => t.modStrand n fun x => { x with cfg := cfg }
    else refuse .notIdle
  | _, _ => refuse .badArgument

/-- SET_STRAND (R1). -/
def execSetStrand (s : State) : Host.Outcome State Fault Refusal := .next (s.request 0x03 18 handleSetStrand)

/-- Another enabled channel holds the strand and face of a configuration (R172). -/
def State.faceTaken (s : State) (m : ChannelId) (cfg : ChannelConfig) : Bool :=
  allChannels.any fun j =>
    j != m && (s.channel j).cfg.enabled && (s.channel j).cfg.strand == cfg.strand && (s.channel j).cfg.face == cfg.face

/-- A channel whose configuration is replaced: everything but its counters starts afresh (R172, R22, R52, R75, R95).
-/
def configuredChannel (cfg : ChannelConfig) (c : Channel) : Channel where
  cfg := cfg
  rx := Receiver.initial
  lp := LineProcessor.initial (if cfg.enabled then .idle else .disabled)
  tt := TrackTable.initial
  stats := c.stats

/-- The channel configuration of a SET_CHANNEL body, column groups as received (R172; 12). -/
def receivedChannelConfig (b : List Byte) : Option ChannelConfig :=
  match switchOf (byteAt b 1), inRange 4 (byteAt b 2), faceOf (byteAt b 3) with
  | some enabled, some strand, some face => some ⟨enabled, strand, face, b.getD 4 0, byteAt b 5⟩
  | _, _, _ => none

/-- SET_CHANNEL handled (R172). -/
def handleSetChannel (b : List Byte) (s : State) : Handled :=
  match inRange 8 (byteAt b 0), receivedChannelConfig b with
  | some m, some raw =>
    if !(s.strandIdle (s.channel m).cfg.strand && s.strandIdle raw.strand) then refuse .notIdle
    else if raw.enabled && s.faceTaken m raw then refuse .badArgument
    else
      let cfg := { raw with groups := clamp 4 32 raw.groups }
      granted (byte (clampMask [raw.groups] [cfg.groups])) fun t => t.modChannel m (configuredChannel cfg)
  | _, _ => refuse .badArgument

/-- SET_CHANNEL (R172). -/
def execSetChannel (s : State) : Host.Outcome State Fault Refusal := .next (s.request 0x04 6 handleSetChannel)

/-! ### Start, finish, stop, cut -/

/-- The strand of a taken START_STRAND (R12). -/
def startedStrand (e : HistoryEntry) (x : Strand) : Strand :=
  { x with
    state := .casting
    travel := 0
    high := 0
    nextTrigger := x.cfg.countsPerLine
    lastTrigger := 0
    lastCut := 0
    forecasts := []
    schedule := []
    history := [e]
    defects := [] }

/-- A channel of the started strand: its receiver QUIET with no last expected tag, its framing and tag offset kept
(R22); its line processor afresh, in WARMUP when enabled (R12, R49, R75); its track table afresh (R95). -/
def startedChannel (c : Channel) : Channel :=
  { c with
    rx := { c.rx with await := .quiet, timer := none, lastExpected := none }
    lp := LineProcessor.initial (if c.cfg.enabled then .warmup else c.lp.state)
    tt := TrackTable.initial }

/-- A START_STRAND is taken (R12): the strand, every channel that names it, the first billet, the notice. -/
def State.startStrand (s : State) (n : StrandId) (e : HistoryEntry) : State :=
  let s := s.modStrand n (startedStrand e)
  let s := (allChannels.filter fun m => (s.channel m).cfg.strand == n).foldl (fun t m => t.modChannel m startedChannel) s
  (s.openBillet n 0 true).strandNotice n .start

/-- Checks 5 to 7 of R11 pass. -/
def State.startConfigGood (s : State) (n : StrandId) (r : Recipe) : Bool :=
  let cfg := (s.strand n).cfg
  let ms := s.channelsOf n
  decide (128 * cfg.countsPerLine ≤ cfg.torchOffset) && !ms.isEmpty &&
    ms.all fun m => !windowEmpty r (s.channel m).cfg.groups

/-- START_STRAND handled, its checks in the order of R11. -/
def handleStartStrand (b : List Byte) (s : State) : Handled :=
  match inRange 4 (byteAt b 0), inRange 16 (byteAt b 1) with
  | some n, some i =>
    if !s.strandIdle n then refuse .busy
    else
      match (s.slot i).content with
      | .writing => refuse .busy
      | .empty => refuse .empty
      | .valid r =>
        if s.startConfigGood n r then
          granted [] fun t => t.startStrand n ⟨0, i, (s.slot i).revision, false, r⟩
        else refuse .badConfig
  | _, _ => refuse .badArgument

/-- START_STRAND (R11, R12). -/
def execStartStrand (s : State) : Host.Outcome State Fault Refusal := .next (s.request 0x05 2 handleStartStrand)

/-- FINISH_STRAND handled (R13). -/
def handleFinishStrand (b : List Byte) (s : State) : Handled :=
  match inRange 4 (byteAt b 0) with
  | none => refuse .badArgument
  | some n =>
    match (s.strand n).state with
    | .idle => refuse .notCasting
    | .casting => granted [] fun t => (t.modStrand n fun x => { x with state := .finishing }).strandNotice n .finish
    | .finishing => granted [] id

/-- FINISH_STRAND (R13). -/
def execFinishStrand (s : State) : Host.Outcome State Fault Refusal := .next (s.request 0x06 1 handleFinishStrand)

/-- STOP_STRAND handled (R14). -/
def handleStopStrand (b : List Byte) (s : State) : Handled :=
  match inRange 4 (byteAt b 0) with
  | none => refuse .badArgument
  | some n =>
    match (s.strand n).state with
    | .idle => granted [] id
    | .casting | .finishing => granted [] fun t => t.stopStrand n .stop

/-- STOP_STRAND (R14). -/
def execStopStrand (s : State) : Host.Outcome State Fault Refusal := .next (s.request 0x07 1 handleStopStrand)

/-- The reply to a CUT_STRAND after its result code: the outcome, and K, 0 unless ACCEPTED (R17). -/
def cutReply (x : Strand) : List Byte :=
  byte (cutCode (cutOutcome x)) ++ le 4 (if cutOutcome x = .accepted then cutCoord x else 0)

/-- CUT_STRAND handled (R17): taken whatever the outcome. -/
def handleCutStrand (b : List Byte) (s : State) : Handled :=
  match inRange 4 (byteAt b 0) with
  | none => refuse .badArgument
  | some n => granted (cutReply (s.strand n)) fun t => t.cut n

/-- CUT_STRAND (R17). -/
def execCutStrand (s : State) : Host.Outcome State Fault Refusal := .next (s.request 0x08 1 handleCutStrand)

/-! ### The grade schedule -/

/-- Capacity of a grade schedule (R157). -/
def scheduleCapacity : Nat := 4

/-- Check 3 of R157: G at or below the last entry's G, or at or below the last triggered line coordinate. -/
def outOfOrder (x : Strand) (g : Nat) : Bool :=
  decide (g ≤ x.lastTrigger) ||
    match x.schedule.getLast? with
    | some e => decide (g ≤ e.coord)
    | none => false

/-- SCHEDULE_GRADE handled, its checks in the order of R157. -/
def handleScheduleGrade (b : List Byte) (s : State) : Handled :=
  match inRange 4 (byteAt b 0), inRange 16 (byteAt b 5) with
  | some n, some i =>
    let x := s.strand n
    let g := u32At b 1
    if s.strandIdle n then refuse .notCasting
    else if outOfOrder x g then refuse .order
    else if scheduleCapacity ≤ x.schedule.length then refuse .full
    else granted (byte (x.schedule.length + 1)) fun t => t.modStrand n fun y => { y with schedule := y.schedule ++ [⟨g, i⟩] }
  | _, _ => refuse .badArgument

/-- SCHEDULE_GRADE (R157). -/
def execScheduleGrade (s : State) : Host.Outcome State Fault Refusal := .next (s.request 0x09 6 handleScheduleGrade)

/-- CLEAR_SCHEDULE handled (R158). -/
def handleClearSchedule (b : List Byte) (s : State) : Handled :=
  match inRange 4 (byteAt b 0) with
  | none => refuse .badArgument
  | some n => granted (byte (s.strand n).schedule.length) fun t => t.modStrand n fun x => { x with schedule := [] }

/-- CLEAR_SCHEDULE (R158). -/
def execClearSchedule (s : State) : Host.Outcome State Fault Refusal := .next (s.request 0x0A 1 handleClearSchedule)

/-! ### Releasing a channel (R86) -/

/-- The line processor released into WARMUP: unseeded, all counts 0, the log kept (R86, R92). -/
def releasedLp (lp : LineProcessor) : LineProcessor := { LineProcessor.initial .warmup with log := lp.log }

/-- A RELEASE_CHANNEL is taken (R86): WARMUP, or HARD_LOCK again with cause WINDOW under an empty window (R83). -/
def State.releaseChannel (s : State) (m : ChannelId) : State :=
  let coord := (s.strandOf m).lastTrigger
  let t := (s.modLp m releasedLp).modTt m freeTable
  if s.windowGone m then t.enterHardLock m .window coord else t.lockNotice m true true .released coord

/-- RELEASE_CHANNEL handled (R86): the reply carries the channel state after the request. -/
def handleReleaseChannel (b : List Byte) (s : State) : Handled :=
  match inRange 8 (byteAt b 0) with
  | none => refuse .badArgument
  | some m =>
    if (s.channel m).hardLocked then
      let after := if s.windowGone m then channelStateCode (.hardLock .window) else channelStateCode .warmup
      granted (byte after) fun t => t.releaseChannel m
    else refuse .notLocked

/-- RELEASE_CHANNEL (R86). -/
def execReleaseChannel (s : State) : Host.Outcome State Fault Refusal := .next (s.request 0x0B 1 handleReleaseChannel)

end Sys2Proof.Machine
end

