-- ==== Sys2Proof/Machine/Recipes.lean ====
section
/-! DEFINITION. The recipe store (08, R146 to R152). Commands STORE_RECIPE, READ_RECIPE, FREEZE_RECIPE, CLEAR_STORE,
STORE_COMPLETE, FREEZE_COMPLETE, CLEAR_COMPLETE. -/

namespace Sys2Proof.Machine

/-- Change a store slot. -/
def State.modSlot (s : State) (i : SlotId) (f : Slot → Slot) : State := s.putSlot i (f (s.slot i))

/-- The operation in flight becomes the given one. -/
def State.setOp (s : State) (op : StoreOp) : State := { s with store := { s.store with op := op } }

/-- Change every store slot. -/
def State.modSlots (s : State) (f : Slot → Slot) : State :=
  { s with store := { s.store with slots := Vector.ofFn fun i => f s.store.slots[i] } }

/-- An operation is in flight (R148). -/
def State.storeBusy (s : State) : Bool := s.store.op != .none

/-- A revision after a successful write: one more, and 65,535 goes to 1 (R147). -/
def nextRevision (r : BitVec 16) : BitVec 16 := if r = 0xFFFF#16 then 1 else r + 1

/-! ### Requests -/

/-- STORE_RECIPE handled, its checks in the order of R148; the slot becomes WRITING at once. -/
def handleStoreRecipe (b : List Byte) (s : State) : Handled :=
  match inRange 16 (byteAt b 0), checkRecipe (b.drop 1) with
  | some i, some (r, mask) =>
    if (s.slot i).frozen then refuse .frozen
    else if s.storeBusy then refuse .busy
    else granted (le 3 mask) fun t => (t.modSlot i fun x => { x with content := .writing }).setOp (.store i r)
  | _, _ => refuse .badArgument

/-- STORE_RECIPE (R146, R148). -/
def execStoreRecipe (s : State) : Host.Outcome State Fault Refusal := .next (s.request 0x0C 38 handleStoreRecipe)

/-- READ_RECIPE handled (R150). -/
def handleReadRecipe (b : List Byte) (s : State) : Handled :=
  match inRange 16 (byteAt b 0) with
  | none => refuse .badArgument
  | some i =>
    match (s.slot i).content with
    | .writing => refuse .busy
    | .empty => refuse .empty
    | .valid r => granted (le 2 (s.slot i).revision.toNat ++ byte (s.slot i).frozen.toNat ++ recipeBytes r) id

/-- READ_RECIPE (R150). -/
def execReadRecipe (s : State) : Host.Outcome State Fault Refusal := .next (s.request 0x0D 1 handleReadRecipe)

/-- FREEZE_RECIPE handled, its checks in the order of R151. -/
def handleFreezeRecipe (b : List Byte) (s : State) : Handled :=
  match inRange 16 (byteAt b 0) with
  | none => refuse .badArgument
  | some i =>
    match (s.slot i).content with
    | .writing => refuse .busy
    | .empty => refuse .empty
    | .valid _ =>
      if (s.slot i).frozen then granted [] id
      else if s.storeBusy then refuse .busy
      else granted [] fun t => t.setOp (.freeze i)

/-- FREEZE_RECIPE (R151). -/
def execFreezeRecipe (s : State) : Host.Outcome State Fault Refusal := .next (s.request 0x0E 1 handleFreezeRecipe)

/-- CLEAR_STORE handled (R152): every slot becomes WRITING at once, its freeze flag and revision held. -/
def handleClearStore (_b : List Byte) (s : State) : Handled :=
  if !allStrands.all s.strandIdle then refuse .notIdle
  else if s.storeBusy then refuse .busy
  else granted [] fun t => (t.modSlots fun x => { x with content := .writing }).setOp .clear

/-- CLEAR_STORE (R152). -/
def execClearStore (s : State) : Host.Outcome State Fault Refusal := .next (s.request 0x0F 0 handleClearStore)

/-! ### Completions -/

/-- A STORE_DONE notice: operation, slot, outcome, state, revision (R149; 12). -/
def State.storeDone (s : State) (op slot : Nat) (result : ResultCode) (state revision : Nat) : State :=
  s.offer .storeDone (byte op ++ byte slot ++ byte (resultCode result) ++ byte state ++ le 2 revision)

/-- A STORE_DONE notice about slot i as it stands after completion. -/
def State.slotDone (s : State) (op : Nat) (i : SlotId) (result : ResultCode) : State :=
  s.storeDone op i.val result (slotStateCode (s.slot i).content) (s.slot i).revision.toNat

/-- The slot after a STORE (R149). -/
def storedSlot (r : Recipe) (verified : Bool) (x : Slot) : Slot :=
  if verified then ⟨.valid r, false, nextRevision x.revision⟩ else { x with content := .empty }

/-- The result of a completed operation (R149, R151). -/
def doneResult (verified : Bool) : ResultCode := if verified then .ok else .storeFailed

/-- STORE_COMPLETE (R149): the write in flight has been made, and verifies or not. -/
def execStoreComplete (verified : Bool) (s : State) : Host.Outcome State Fault Refusal :=
  .next (whileRunning s fun s =>
    match s.store.op with
    | .store i r => ((s.modSlot i (storedSlot r verified)).setOp .none).slotDone 1 i (doneResult verified)
    | .none | .freeze _ | .clear => s)

/-- FREEZE_COMPLETE (R151). -/
def execFreezeComplete (verified : Bool) (s : State) : Host.Outcome State Fault Refusal :=
  .next (whileRunning s fun s =>
    match s.store.op with
    | .freeze i => ((s.modSlot i fun x => { x with frozen := x.frozen || verified }).setOp .none).slotDone 2 i
        (doneResult verified)
    | .none | .store _ _ | .clear => s)

/-- A cleared slot (R152). -/
def clearedSlot : Slot := ⟨.empty, false, 0⟩

/-- CLEAR_COMPLETE (R152): every slot EMPTY, unfrozen, revision 0; there is no failing outcome. -/
def execClearComplete (s : State) : Host.Outcome State Fault Refusal :=
  .next (whileRunning s fun s =>
    match s.store.op with
    | .clear => ((s.modSlots fun _ => clearedSlot).setOp .none).storeDone 3 0xFF .ok 0 0
    | .none | .store _ _ | .freeze _ => s)

end Sys2Proof.Machine
end

