-- ==== Sys2Proof/Machine/Supervision.lean ====
section
/-! DEFINITION. Restart and supervision (11; 08, R153; 09, R168, R174). Commands TRANSMIT_COMPLETE, HOST_RESTART,
RESET_LOW, RESET_HIGH, SUPPLY_SAMPLE, SUPPLY_HOLD, SUPPLY_RELEASE, POWER_UP, CLOCK_HALT, RESTART_RELEASE. -/

namespace Sys2Proof.Machine

/-! ### What a restart does to the blocks -/

/-- The cause to be recorded, by the facts so far (R184). -/
def restartCause (p : Supervisor) : RestartCause :=
  if p.started then .powerUp
  else if p.haltHold then .clockLoss
  else if p.supplySeen then .supplyLow
  else if p.resetSeen then .resetPin
  else .hostRestart

/-- The causes that zero statistics and billet numbers (11, "What each cause keeps"). -/
def clearsCounts : RestartCause → Bool
  | .powerUp | .supplyLow => true
  | .resetPin | .clockLoss | .hostRestart => false

/-- Statistics and billet number counters zeroed, when the cause does so (R123, R176). -/
def State.clearCounts (s : State) (cause : RestartCause) : State :=
  if clearsCounts cause then
    { s with
      strands := Vector.ofFn fun n => { s.strands[n] with stats := Vector.replicate 20 0, billetCounter := 0 }
      channels := Vector.ofFn fun m => { s.channels[m] with stats := Vector.replicate 22 0 }
      linkStats := Vector.replicate 5 0 }
  else s

/-- An operation in flight is resolved by a restart (R153). -/
def resolveStore (st : Store) : Store :=
  match st.op with
  | .none => st
  | .store i _ => { slots := st.slots.set i { st.slots[i] with content := .empty, frozen := false }, op := .none }
  | .freeze i => { slots := st.slots.set i { st.slots[i] with frozen := false }, op := .none }
  | .clear => { slots := Vector.replicate 16 clearedSlot, op := .none }

/-- Every block other than SUP takes its value after a restart; counters and billet numbers are kept (11, "What each
cause keeps": R21, R22, R37, R75, R95, R123, R142, R147, R165, R168, R169, R172). -/
def State.blocksInitial (s : State) : State :=
  { s with
    strands := Vector.ofFn fun n => Strand.initial s.strands[n].stats s.strands[n].billetCounter
    channels := Vector.ofFn fun m => Channel.initial m s.channels[m].stats
    rq := []
    store := resolveStore s.store
    hli := Hli.initial s.hli.lineRate }

/-- A restart hold begins, if none is in force (R181): the blocks stop and take the values of the cause being
recorded. -/
def State.beginHold (s : State) : State :=
  if s.sup.inRestart then s
  else
    let s := s.modSup fun p => { p with inRestart := true, haltHold := p.clock == .halted, resetSeen := p.pinHold }
    s.blocksInitial.clearCounts (restartCause s.sup)

/-! ### RESET and the host (R174, R181) -/

/-- RESET_LOW (R181). -/
def execResetLow (s : State) : Host.Outcome State Fault Refusal :=
  .next ((s.modSup fun p => { p with pinHold := true, resetSeen := true }).beginHold)

/-- RESET_HIGH (R181): the pin hold ends. -/
def execResetHigh (s : State) : Host.Outcome State Fault Refusal := .next (s.modSup fun p => { p with pinHold := false })

/-- The reply to the RESTART that is pending: kind 0x94 with result OK. -/
def isRestartReply (f : OutFrame) : Bool := f.kind == 0x94#8 && f.body == byte (resultCode .ok)

/-- The oldest output frame is the reply to a pending RESTART (R174). -/
def State.restartReplyNext (s : State) : Bool :=
  s.hli.restartPending && (s.hli.output.head?.map isRestartReply).getD false

/-- HOST_RESTART (R174): the RESTART reply has left HTXD, and the part restarts. -/
def execHostRestart (s : State) : Host.Outcome State Fault Refusal :=
  .next (whileRunning s fun s => if s.restartReplyNext then s.beginHold else s)

/-- TRANSMIT_COMPLETE (R168): the oldest frame's entry is freed. When that frame is the reply to a pending RESTART,
its leaving is the restart (R174; log 13). -/
def execTransmitComplete (s : State) : Host.Outcome State Fault Refusal :=
  .next (whileRunning s fun s =>
    if s.restartReplyNext then s.beginHold else s.modHli fun h => { h with output := h.output.drop 1 })

/-! ### The supply filter (R182) -/

/-- The filter holds: the third consecutive sample below the threshold. -/
def State.supplyHold (s : State) : State :=
  (s.modSup fun p => { p with holding := true, supplySeen := true, below := 0, above := 0 }).beginHold

/-- The filter releases: the third consecutive sample at or above the threshold. -/
def State.supplyRelease (s : State) : State := s.modSup fun p => { p with holding := false, below := 0, above := 0 }

/-- SUPPLY_HOLD (R182): the sample that brings the below count to 3. -/
def execSupplyHold (s : State) : Host.Outcome State Fault Refusal :=
  .next (if !s.sup.holding && s.sup.below == 2 then s.supplyHold else s)

/-- SUPPLY_RELEASE (R182): the sample that brings the above count to 3. -/
def execSupplyRelease (s : State) : Host.Outcome State Fault Refusal :=
  .next (if s.sup.holding && s.sup.above == 2 then s.supplyRelease else s)

/-- SUPPLY_SAMPLE (R182): one sample; a third in a row does what SUPPLY_HOLD or SUPPLY_RELEASE does (log 28). -/
def execSupplySample (isBelow : Bool) (s : State) : Host.Outcome State Fault Refusal :=
  .next (match s.sup.holding, isBelow with
    | false, true => if 2 ≤ s.sup.below then s.supplyHold else s.modSup fun p => { p with below := p.below + 1 }
    | false, false => s.modSup fun p => { p with below := 0 }
    | true, false => if 2 ≤ s.sup.above then s.supplyRelease else s.modSup fun p => { p with above := p.above + 1 }
    | true, true => s.modSup fun p => { p with above := 0 })

/-- SUP as it starts: the filter holding, both counts 0, the clock state RUNNING, the restart record lost; RESET is as
it stands (R182; 11, "Reset pin and supply limits"; log 18). The supply hold seen flag starts clear, a DESIGN CHOICE:
R182 does not give it (log 37). -/
def startedSupervisor (p : Supervisor) : Supervisor where
  holding := true
  below := 0
  above := 0
  supplySeen := false
  pinHold := p.pinHold
  clock := .running
  lastCause := .powerUp
  counts := Vector.replicate 5 0
  inRestart := true
  started := true
  haltHold := false
  resetSeen := p.pinHold

/-- POWER_UP (R182): SUP starts with its filter holding, and the part is held. -/
def execPowerUp (s : State) : Host.Outcome State Fault Refusal :=
  .next ((s.modSup startedSupervisor).blocksInitial.clearCounts .powerUp)

/-! ### The clock monitor (R183) -/

/-- CLOCK_HALT (R183): every block stops with its state as it was, and TRIGn are driven low. -/
def execClockHalt (s : State) : Host.Outcome State Fault Refusal :=
  .next (whileRunning s fun s =>
    { s.modSup fun p => { p with clock := .halted } with
      strands := Vector.ofFn fun n => { s.strands[n] with trig := false } })

/-! ### The release (R181, R184, R185) -/

/-- The restart record after a completed restart (R185): POWER_UP clears it first; the cause's count saturates at 255.
-/
def recordedCounts (cause : RestartCause) (counts : Vector Nat 5) : Vector Nat 5 :=
  let base := if cause = .powerUp then Vector.replicate 5 0 else counts
  base.set (causeIndex cause) (min 255 (base[causeIndex cause] + 1))

/-- SUP after the release (R181, R185). -/
def releasedSupervisor (p : Supervisor) : Supervisor :=
  { p with
    lastCause := restartCause p
    counts := recordedCounts (restartCause p) p.counts
    supplySeen := false
    clock := .running
    inRestart := false
    started := false
    haltHold := false
    resetSeen := false }

/-- The RESTARTED notice: cause and the five counts (R185; 12). -/
def restartedFrame (p : Supervisor) : OutFrame :=
  ⟨0xC8#8, 0, byte (causeCode p.lastCause) ++ p.counts.toList.flatMap byte⟩

/-- The part is released with the pins as they stand (R181): cause and record, straps, quadrature phases and reference
levels (R21, R163), and the RESTARTED notice into the empty queue (R169, R185). -/
def State.releaseRestart (s : State) (pins : ReleasePins) : State :=
  let s := (s.clearCounts (restartCause s.sup)).modSup releasedSupervisor
  { s with
    strands := Vector.ofFn fun n =>
      { s.strands[n] with phase := pins.phases[n], cutLevel := pins.cut[n], oscLevel := pins.osc[n] }
    hli := { s.hli with lineRate := pins.straps, output := [restartedFrame s.sup] } }

/-- RESTART_RELEASE (R181): the part is in restart, no hold remains, and REFCLK runs. -/
def execRestartRelease (pins : ReleasePins) (s : State) : Host.Outcome State Fault Refusal :=
  .next (if s.sup.inRestart && !s.sup.holding && !s.sup.pinHold then s.releaseRestart pins else s)

end Sys2Proof.Machine
end

