-- ==== Sys2Proof/Machine/Dispatch.lean ====
section
/-! DEFINITION. One arm per command, each one call of its meaning. -/

namespace Sys2Proof.Machine

def exec (i : Instr) (s : State) : Host.Outcome State Fault Refusal :=
  match i with
  | .encoderCount n input => Sys2Proof.Machine.execEncoderCount n input s
  | .trigPulseEnd n => Sys2Proof.Machine.execTrigPulseEnd n s
  | .oscEdge n => Sys2Proof.Machine.execOscEdge n s
  | .cutEdge n => Sys2Proof.Machine.execCutEdge n s
  | .scanFrame m f => Sys2Proof.Machine.execScanFrame m f s
  | .scanGapTimeout m inHeader => Sys2Proof.Machine.execScanGapTimeout m inHeader s
  | .lineWaitExpiry m k => Sys2Proof.Machine.execLineWaitExpiry m k s
  | .hostFrame f crc => Sys2Proof.Machine.execHostFrame f crc s
  | .hostFrameBad why => Sys2Proof.Machine.execHostFrameBad why s
  | .hostGapTimeout => Sys2Proof.Machine.execHostGapTimeout s
  | .transmitComplete => Sys2Proof.Machine.execTransmitComplete s
  | .unknownKind => Sys2Proof.Machine.execUnknownKind s
  | .getInfo => Sys2Proof.Machine.execGetInfo s
  | .getStatus => Sys2Proof.Machine.execGetStatus s
  | .setStrand => Sys2Proof.Machine.execSetStrand s
  | .setChannel => Sys2Proof.Machine.execSetChannel s
  | .startStrand => Sys2Proof.Machine.execStartStrand s
  | .finishStrand => Sys2Proof.Machine.execFinishStrand s
  | .stopStrand => Sys2Proof.Machine.execStopStrand s
  | .cutStrand => Sys2Proof.Machine.execCutStrand s
  | .scheduleGrade => Sys2Proof.Machine.execScheduleGrade s
  | .clearSchedule => Sys2Proof.Machine.execClearSchedule s
  | .releaseChannel => Sys2Proof.Machine.execReleaseChannel s
  | .storeRecipe => Sys2Proof.Machine.execStoreRecipe s
  | .readRecipe => Sys2Proof.Machine.execReadRecipe s
  | .freezeRecipe => Sys2Proof.Machine.execFreezeRecipe s
  | .clearStore => Sys2Proof.Machine.execClearStore s
  | .takeBillet => Sys2Proof.Machine.execTakeBillet s
  | .getTracks => Sys2Proof.Machine.execGetTracks s
  | .getStats => Sys2Proof.Machine.execGetStats s
  | .setNotices => Sys2Proof.Machine.execSetNotices s
  | .restart => Sys2Proof.Machine.execRestart s
  | .hostRestart => Sys2Proof.Machine.execHostRestart s
  | .storeComplete verified => Sys2Proof.Machine.execStoreComplete verified s
  | .freezeComplete verified => Sys2Proof.Machine.execFreezeComplete verified s
  | .clearComplete => Sys2Proof.Machine.execClearComplete s
  | .resetLow => Sys2Proof.Machine.execResetLow s
  | .resetHigh => Sys2Proof.Machine.execResetHigh s
  | .supplyHold => Sys2Proof.Machine.execSupplyHold s
  | .supplyRelease => Sys2Proof.Machine.execSupplyRelease s
  | .powerUp => Sys2Proof.Machine.execPowerUp s
  | .clockHalt => Sys2Proof.Machine.execClockHalt s
  | .restartRelease pins => Sys2Proof.Machine.execRestartRelease pins s
  | .supplySample isBelow => Sys2Proof.Machine.execSupplySample isBelow s
  | .bothInputsChange n => Sys2Proof.Machine.execBothInputsChange n s
  | .syncPair m h => Sys2Proof.Machine.execSyncPair m h s
  | .startByte => Sys2Proof.Machine.execStartByte s

end Sys2Proof.Machine
end

