-- ==== Sys2Proof/Safety.lean ====
section
/-! DEFINITION. What the statements speak of: when the part takes events and requests, what an answered request
leaves, and the invariants that every command keeps. -/

namespace Sys2Proof.Machine

/-! ### When the part works -/

/-- The blocks other than SUP take events (R181, R183). -/
abbrev State.Runs (s : State) : Prop := s.sup.inRestart = false ∧ s.sup.clock = .running

/-- `f` is the oldest waiting frame and the conditions for taking it hold (R166). -/
abbrev State.Takes (s : State) (f : HostFrame) : Prop :=
  s.Runs ∧ s.hli.inHand = none ∧ s.hli.restartPending = false ∧ s.hli.output.length < 16 ∧
    s.hli.buffer.head? = some f

/-- `s` with its oldest waiting frame taken and answered (R166, R167): the frame has left the buffer, no request is in
hand, and the reply, the request's kind plus 0x80 and its tag, stands last in the output queue. -/
def State.answered (s : State) (f : HostFrame) (body : List Byte) : State :=
  { s with
    hli :=
      { s.hli with
        buffer := s.hli.buffer.drop 1
        inHand := none
        output := s.hli.output ++ [⟨f.kind + 0x80#8, f.tag, body⟩] } }

/-- The kind code and the body length of a request command (12, "Host frame envelope", "Request bodies"). -/
def requestForm : Instr → Option (Byte × Nat)
  | .getInfo => some (0x01#8, 0) | .getStatus => some (0x02#8, 2) | .setStrand => some (0x03#8, 18)
  | .setChannel => some (0x04#8, 6) | .startStrand => some (0x05#8, 2) | .finishStrand => some (0x06#8, 1)
  | .stopStrand => some (0x07#8, 1) | .cutStrand => some (0x08#8, 1) | .scheduleGrade => some (0x09#8, 6)
  | .clearSchedule => some (0x0A#8, 1) | .releaseChannel => some (0x0B#8, 1) | .storeRecipe => some (0x0C#8, 38)
  | .readRecipe => some (0x0D#8, 1) | .freezeRecipe => some (0x0E#8, 1) | .clearStore => some (0x0F#8, 0)
  | .takeBillet => some (0x10#8, 0) | .getTracks => some (0x11#8, 1) | .getStats => some (0x12#8, 3)
  | .setNotices => some (0x13#8, 1) | .restart => some (0x14#8, 0)
  | .encoderCount _ _ | .trigPulseEnd _ | .oscEdge _ | .cutEdge _ | .scanFrame _ _ | .scanGapTimeout _ _
  | .lineWaitExpiry _ _ | .hostFrame _ _ | .hostFrameBad _ | .hostGapTimeout | .transmitComplete | .unknownKind
  | .hostRestart | .storeComplete _ | .freezeComplete _ | .clearComplete | .resetLow | .resetHigh | .supplyHold
  | .supplyRelease | .powerUp | .clockHalt | .restartRelease _ | .supplySample _ | .bothInputsChange _ | .syncPair _ _
  | .startByte => none

/-- The commands that SUP itself takes, held or halted (11): all other commands are events of the blocks it holds. -/
def ofSupervisor : Instr → Bool
  | .resetLow | .resetHigh | .supplyHold | .supplyRelease | .powerUp | .restartRelease _ | .supplySample _ => true
  | .encoderCount _ _ | .trigPulseEnd _ | .oscEdge _ | .cutEdge _ | .scanFrame _ _ | .scanGapTimeout _ _
  | .lineWaitExpiry _ _ | .hostFrame _ _ | .hostFrameBad _ | .hostGapTimeout | .transmitComplete | .unknownKind
  | .getInfo | .getStatus | .setStrand | .setChannel | .startStrand | .finishStrand | .stopStrand | .cutStrand
  | .scheduleGrade | .clearSchedule | .releaseChannel | .storeRecipe | .readRecipe | .freezeRecipe | .clearStore
  | .takeBillet | .getTracks | .getStats | .setNotices | .restart | .hostRestart | .storeComplete _
  | .freezeComplete _ | .clearComplete | .clockHalt | .bothInputsChange _ | .syncPair _ _ | .startByte => false

/-- The commands that can bring H of a strand back to 0 (R4): START_STRAND, and those that begin a restart (R181). -/
def zeroesTravel : Instr → Bool
  | .startStrand | .transmitComplete | .hostRestart | .resetLow | .supplyHold | .supplySample _ | .powerUp => true
  | .encoderCount _ _ | .trigPulseEnd _ | .oscEdge _ | .cutEdge _ | .scanFrame _ _ | .scanGapTimeout _ _
  | .lineWaitExpiry _ _ | .hostFrame _ _ | .hostFrameBad _ | .hostGapTimeout | .unknownKind | .getInfo | .getStatus
  | .setStrand | .setChannel | .finishStrand | .stopStrand | .cutStrand | .scheduleGrade | .clearSchedule
  | .releaseChannel | .storeRecipe | .readRecipe | .freezeRecipe | .clearStore | .takeBillet | .getTracks | .getStats
  | .setNotices | .restart | .storeComplete _ | .freezeComplete _ | .clearComplete | .resetHigh | .supplyRelease
  | .clockHalt | .restartRelease _ | .bothInputsChange _ | .syncPair _ _ | .startByte => false

/-! ### The quadrature cycle (R2) -/

/-- Place of a level pair in the cycle 00, 10, 11, 01. -/
def cyclePlace : Phase → Nat
  | ⟨false, false⟩ => 0
  | ⟨true, false⟩ => 1
  | ⟨true, true⟩ => 2
  | ⟨false, true⟩ => 3

/-- The level pair after one input has changed. -/
def pairAfter (p : Phase) : EncInput → Phase
  | .encA => ⟨!p.a, p.b⟩
  | .encB => ⟨p.a, !p.b⟩

/-- The change from one pair to the next is a forward count of the strand: one place on in the cycle under +, one
place back under − (R2). -/
def movesForward (sign : EncoderSign) (p q : Phase) : Bool :=
  match sign with
  | .plus => cyclePlace q == (cyclePlace p + 1) % 4
  | .minus => cyclePlace p == (cyclePlace q + 1) % 4

/-! ### Invariants -/

/-- Every queue, table and buffer holds no more than the spec gives it (R61, R90, R126, R140, R155, R157, R165,
R168). -/
def State.WithinCapacity (s : State) : Prop :=
  (∀ n, (s.strand n).forecasts.length ≤ 24 ∧ (s.strand n).schedule.length ≤ 4 ∧ (s.strand n).history.length ≤ 5 ∧
      (s.strand n).defects.length ≤ 96) ∧
    (∀ m, (s.channel m).lp.log.length ≤ 64) ∧ s.rq.length ≤ 8 ∧ s.hli.buffer.length ≤ 4 ∧ s.hli.output.length ≤ 16

/-- An IDLE strand holds no forecast, schedule entry, history entry, billet or pending record, and TRIGn is low; a
strand that is not IDLE has a billet open and a recipe in force (R10, R61, R123, R124, R155, R158). -/
def Strand.Settled (x : Strand) : Prop :=
  (x.state = .idle →
      x.forecasts = [] ∧ x.schedule = [] ∧ x.history = [] ∧ x.billet = none ∧ x.defects = [] ∧ x.trig = false) ∧
    (x.state ≠ .idle → x.billet.isSome = true ∧ x.history ≠ [])

/-- Every strand is settled. -/
def State.StrandsSettled (s : State) : Prop := ∀ n, (s.strand n).Settled

/-- Every column of a line processor is unseeded with baseline 0. -/
def LineProcessor.Unseeded (lp : LineProcessor) : Prop := ∀ c : Fin 256, lp.columns[c] = ⟨0, false⟩

/-- All 16 slots are FREE. -/
def TrackTable.Empty (tt : TrackTable) : Prop := ∀ i : Fin 16, tt.slots[i] = none

/-- The channel states in which the baselines are 0 and unseeded (R37, R84). -/
def ChannelState.dark : ChannelState → Bool
  | .disabled | .idle | .hardLock _ => true
  | .warmup | .active | .softLock _ => false

/-- The channel states in which tracks may be followed (R95): ACTIVE, and SOFT_LOCK entered from ACTIVE. -/
def ChannelState.tracking : ChannelState → Bool
  | .active | .softLock .active => true
  | .disabled | .idle | .hardLock _ | .warmup | .softLock .warmup => false

/-- What a channel holds, given whether its strand is IDLE (R22, R30, R37, R75, R87, R95): DISABLED when it is not
enabled, IDLE when its strand is, in neither state otherwise; no await unless it is enabled on a casting strand; a
timer exactly during an await; baselines unseeded and slots FREE where the state says so. -/
def Channel.Settled (c : Channel) (strandIdle : Bool) : Prop :=
  (c.cfg.enabled = false → c.lp.state = .disabled) ∧
    (c.cfg.enabled = true → strandIdle = true → c.lp.state = .idle) ∧
    (c.cfg.enabled = true → strandIdle = false → c.lp.state ≠ .disabled ∧ c.lp.state ≠ .idle) ∧
    (c.cfg.enabled = false ∨ strandIdle = true → c.rx.await = .quiet) ∧ (c.rx.await = .quiet ↔ c.rx.timer = none) ∧
    (c.lp.state.dark = true → c.lp.Unseeded ∧ c.lp.warmCount = 0) ∧ (c.lp.state.tracking = false → c.tt.Empty)

/-- Every channel is settled. -/
def State.ChannelsSettled (s : State) : Prop :=
  ∀ m, (s.channel m).Settled ((s.strand (s.channel m).cfg.strand).state == .idle)

/-- Every baseline lies within 0..65,520 (R45), and an unseeded column holds 0 (R37, R42). -/
def State.BaselinesInRange (s : State) : Prop :=
  ∀ m, ∀ c : Fin 256,
    (s.channel m).lp.columns[c].baseline ≤ 65520 ∧
      ((s.channel m).lp.columns[c].seeded = false → (s.channel m).lp.columns[c].baseline = 0)

/-- The order of a strand's coordinates: T at or below H, H at most 4,294,967,295 (R4); forecasts in non-decreasing
order, none above H + mould_to_sensor_counts (R61, R62); history entries in strictly increasing order, none beyond the
last triggered line (R155, R159); schedule entries in strictly increasing order, each beyond it (R157). -/
def Strand.Ordered (x : Strand) : Prop :=
  1 ≤ x.cfg.countsPerLine ∧ x.travel ≤ x.high ∧ x.high ≤ maxCoord ∧
    (x.state = .idle → x.forecasts = []) ∧ (x.state ≠ .idle → x.lastTrigger < x.nextTrigger) ∧
    x.forecasts.Pairwise (· ≤ ·) ∧ (∀ f ∈ x.forecasts, f ≤ x.high + x.cfg.mouldToSensor) ∧
    (x.history.map (·.coord)).Pairwise (· < ·) ∧ (∀ e ∈ x.history, e.coord ≤ x.lastTrigger) ∧
    (x.schedule.map (·.coord)).Pairwise (· < ·) ∧ (∀ e ∈ x.schedule, x.lastTrigger < e.coord)

/-- Every strand's coordinates are in order. -/
def State.StrandsOrdered (s : State) : Prop := ∀ n, (s.strand n).Ordered

/-- Some face meets a reject limit (R138, row REJECT). -/
def BilletReport.Rejects (r : BilletReport) : Prop :=
  ∃ f ∈ r.faces,
    (r.limits.rejectSingle ≠ 0 ∧ r.limits.rejectSingle ≤ f.longestMm) ∨
      (r.limits.rejectTotal ≠ 0 ∧ r.limits.rejectTotal ≤ f.totalMm) ∨
      (r.limits.transReject ≠ 0 ∧ r.limits.transReject ≤ f.transCount)

/-- Some face falls short of the coverage, or the billet carries DEFECTS_DROPPED or STOPPED (R138, row UNVERIFIED). -/
def BilletReport.Unverifies (r : BilletReport) : Prop :=
  (∃ f ∈ r.faces, f.inspected * 100 < r.limits.coverageMin * (f.inspected + f.obscured + f.unavailable)) ∨
    r.flags.defectsDropped = true ∨ r.flags.stopped = true

/-- Some face meets a condition limit (R138, row CONDITION). -/
def BilletReport.Conditions (r : BilletReport) : Prop :=
  ∃ f ∈ r.faces,
    (r.limits.conditionSingle ≠ 0 ∧ r.limits.conditionSingle ≤ f.longestMm) ∨
      (r.limits.conditionCount ≠ 0 ∧ r.limits.conditionCount ≤ f.longCount)

/-- The grade is the first of the four rows whose condition holds (R138). -/
def BilletReport.GradedInOrder (r : BilletReport) : Prop :=
  (r.grade = .reject ↔ r.Rejects) ∧ (r.grade = .unverified ↔ ¬r.Rejects ∧ r.Unverifies) ∧
    (r.grade = .condition ↔ ¬r.Rejects ∧ ¬r.Unverifies ∧ r.Conditions)

/-- Every queued report is graded in order. -/
def State.ReportsGraded (s : State) : Prop := ∀ r ∈ s.rq, r.GradedInOrder

/-- Billets closed is the sum of the four grade counters, modulo 2^32 (R139, R178). -/
def State.ClosesCounted (s : State) : Prop :=
  ∀ n, s.strandCount n .billetsClosed =
    s.strandCount n .accept + s.strandCount n .condition + s.strandCount n .unverified + s.strandCount n .reject

/-- Wide runs is the sum of MARK and TRANSVERSE, modulo 2^32 (R74). -/
def State.WideRunsCounted (s : State) : Prop :=
  ∀ m, s.channelCount m .wideRuns = s.channelCount m .mark + s.channelCount m .transverse

/-- A track is as hits and misses make it (R101, R104, R106, R107, R114): the centre lies in the columns spanned,
there are 1 to 65,535 hit lines and at most 65,535 gap lines; TENTATIVE has at most one miss in a row and is not
CONTINUED, CONFIRMED has none, COASTING has one at least. -/
def Track.Sound (t : Track) : Prop :=
  t.minCol ≤ t.centre ∧ t.centre ≤ t.maxCol ∧ 1 ≤ t.hitLines ∧ t.hitLines ≤ 65535 ∧ t.gapLines ≤ 65535 ∧
    (t.state = .tentative → t.missRun ≤ 1 ∧ t.continued = false) ∧ (t.state = .confirmed → t.missRun = 0) ∧
    (t.state = .coasting → 1 ≤ t.missRun)

/-- Every track in a slot is sound. -/
def State.TracksSound (s : State) : Prop := ∀ m, ∀ i : SlotId, ∀ t, (s.channel m).tt.slots[i] = some t → t.Sound

/-- A slot is VALID. -/
def SlotContent.isValid : SlotContent → Bool
  | .valid _ => true
  | .empty | .writing => false

/-- The slots agree with the operation in flight (R148, R151, R152): a STORE has exactly its slot WRITING, and that
slot unfrozen; a FREEZE has its slot VALID and unfrozen and none WRITING; a CLEAR has every slot WRITING; with none in
flight no slot is WRITING. But for a CLEAR in flight, a frozen slot is VALID. -/
def State.StoreSettled (s : State) : Prop :=
  match s.store.op with
  | .none => ∀ i, (s.slot i).content ≠ .writing ∧ ((s.slot i).frozen = true → (s.slot i).content.isValid = true)
  | .store j _ =>
    (s.slot j).content = .writing ∧ (s.slot j).frozen = false ∧
      ∀ i, i ≠ j → (s.slot i).content ≠ .writing ∧ ((s.slot i).frozen = true → (s.slot i).content.isValid = true)
  | .freeze j =>
    (s.slot j).content.isValid = true ∧ (s.slot j).frozen = false ∧
      ∀ i, (s.slot i).content ≠ .writing ∧ ((s.slot i).frozen = true → (s.slot i).content.isValid = true)
  | .clear => ∀ i, (s.slot i).content = .writing

/-! ### Numbers -/

/-- The smaller of two limits that are set, 0 when neither is (R137). -/
def smallestSet (a b : Nat) : Nat := if a = 0 then b else if b = 0 then a else min a b

/-- 1 when two numbers differ, the flag of a clamp mask (R1). -/
def differs (a b : Nat) : Nat := if a = b then 0 else 1

/-- The absolute difference of two columns (R99). -/
def columnsApart (a b : Nat) : Nat := ((a : Int) - b).natAbs

/-! ### What the link takes from the plant -/

/-- The host link took notices alone: the output queue is the one before with frames of enabled notice kinds behind
it, of tag 0 and within 15 entries, and of the link counters only NOTICES_LOST and REPORT_LOST may have moved (R141,
R168, R169). -/
def LinkGrows (s t : State) : Prop :=
  (∃ notices : List OutFrame,
    t.hli = { s.hli with output := s.hli.output ++ notices } ∧
      (notices = [] ∨ (s.hli.output ++ notices).length ≤ 15) ∧
      ∀ g ∈ notices, g.tag = 0#8 ∧
        ∃ k : NoticeKind, g.kind = BitVec.ofNat 8 (0xC0 + noticeBit k) ∧ s.hli.mask.getLsbD (noticeBit k) = true) ∧
    ∀ i : Fin 5, i ≠ 3 → i ≠ 4 → t.linkStats[i] = s.linkStats[i]

/-- `t` is a state in which the notice was offered last: at the end of the work, on a link that had taken notices
alone since `s` (R166, R168). -/
def OfferedLast (k : NoticeKind) (body : List Byte) (s t : State) : Prop :=
  ∃ u : State, LinkGrows s u ∧ t = u.offer k body

/-- `s` after notices were offered one behind the other (R168). -/
def State.offers (s : State) (notices : List (NoticeKind × List Byte)) : State :=
  notices.foldl (fun u x => u.offer x.1 x.2) s

/-- Between `s` and `t` the notice was offered, on a link that took notices alone before and after it: where the kind
is enabled, it stands in the queue of `t` or the queue was full up to its reserve (R168, R169). -/
def OfferedAmong (k : NoticeKind) (body : List Byte) (s t : State) : Prop :=
  ∃ u : State, LinkGrows s u ∧ LinkGrows (u.offer k body) t

/-- The body of a CHANNEL_LOCK notice: channel, strand, LEFT 1 or ENTERED 0, HARD 1 or SOFT 0, cause code, coordinate
(R87; 12). -/
def lockBody (m : ChannelId) (n : StrandId) (left hard cause : Byte) (coord : Nat) : List Byte :=
  byte m.val ++ byte n.val ++ [left, hard, cause] ++ le 4 coord

/-- The first notice since `s` was a CHANNEL_LOCK of channel m (R87): where the link had room and the kind is enabled,
it stands first behind the queue. -/
def LockOffered (m : ChannelId) (left hard cause : Byte) (coord : Nat) (s t : State) : Prop :=
  (s.offer .channelLock (lockBody m (s.channel m).cfg.strand left hard cause coord)).hli.output <+: t.hli.output

/-- The notices of a report pushed into the report queue of `s`: into a full queue first REPORT_LOST, with strand,
billet number and grade of the oldest report, which is discarded; then BILLET_READY with those of the report pushed and
the number of reports in the queue after it (R140, R141; 12). -/
def State.reportNotices (s : State) (r : BilletReport) : List (NoticeKind × List Byte) :=
  let name := fun x : BilletReport => byte x.strand.val ++ le 2 x.number.toNat ++ byte (gradeCode x.grade)
  let lost := if s.rq.length < 8 then [] else s.rq.head?.toList
  lost.map (fun old => (.reportLost, name old)) ++ [(.billetReady, name r ++ byte (s.rq.length - lost.length + 1))]

/-- The notice of a schedule entry of strand n, due at the trigger of the line at a coordinate: GRADE_APPLIED from a
VALID slot, with its revision and name and whether the copy differs in polarity or a margin from the newest recipe
before the trigger; GRADE_CHANGE_FAILED with the slot's state from another (R159; 12). -/
def State.gradeNotice (s : State) (n : StrandId) (line : Nat) (e : ScheduleEntry) : NoticeKind × List Byte :=
  let head := byte n.val ++ le 4 e.coord ++ le 4 line ++ byte e.slot.val
  match (s.slot e.slot).content with
  | .empty => (.gradeChangeFailed, head ++ [0x00#8])
  | .writing => (.gradeChangeFailed, head ++ [0x01#8])
  | .valid r =>
    let differs := (s.strand n).history.getLast?.any fun h =>
      decide (h.recipe.polarity ≠ r.polarity ∨ h.recipe.leftMargin ≠ r.leftMargin ∨ h.recipe.rightMargin ≠ r.rightMargin)
    (.gradeApplied, head ++ le 2 (s.slot e.slot).revision.toNat ++ r.name.toList ++ byte differs.toNat)

/-! ### Coverage, tracks and records -/

/-- The lines of a coverage log one by one, each with its coordinate and class (R90). -/
def logCells (pitch : Nat) (log : List Segment) : List (Nat × Coverage) :=
  log.flatMap fun seg => (List.range seg.count).map fun i => (seg.start + i * pitch, seg.cls)

/-- The number of lines that a coverage log holds (R90). -/
def logLines (log : List Segment) : Nat := (log.map (·.count)).sum

/-- A distance in a length field (R7, R108, R129). -/
def StrandConfig.lengthMm (g : StrandConfig) (counts : Nat) : Nat := min 65535 ((counts * g.umPerCount + 500) / 1000)

/-- The longitudinal record of a track as it stands (R108). -/
def Track.record (t : Track) (m : ChannelId) (face : Face) (g : StrandConfig) : DefectRecord where
  kind := .longitudinal (t.peakSum / t.hitLines) t.hitLines t.gapLines
  channel := m
  face := face
  start := t.start
  stop := t.last + g.countsPerLine
  lengthMm := g.lengthMm (t.last + g.countsPerLine - t.start)
  firstCol := t.minCol
  lastCol := t.maxCol
  peak := t.peakMax
  continues := false
  continued := t.continued
  truncated := false
  atMark := false

/-- The CONFIRMED and COASTING tracks, in slot order. -/
def TrackTable.followed (tt : TrackTable) : List Track :=
  (tt.slots.toList.filterMap id).filter fun t => t.state != .tentative

/-- The tracks a line finds: tentative expiry frees those 96 line pitches or more behind it (R97). -/
def TrackTable.unexpired (tt : TrackTable) (pitch line : Nat) (i : SlotId) : Option Track :=
  tt.slots[i].filter fun t => !(t.state == .tentative && decide (t.start + 96 * pitch ≤ line))

/-- A hold hand-over of a line with its recipe: the last line handled is set, and tracks go by tentative expiry alone
(R96 to R98). -/
def HeldBy (pitch line : Nat) (r : Recipe) (tt tt' : TrackTable) : Prop :=
  tt'.lastLine = some ⟨line, r⟩ ∧ ∀ i : SlotId, tt'.slots[i] = tt.unexpired pitch line i

/-- The records that a flush of channel m forms, in slot order (R111). -/
def Channel.flushed (c : Channel) (m : ChannelId) (g : StrandConfig) : List DefectRecord :=
  c.tt.followed.map fun t => { t.record m c.cfg.face g with truncated := true }

/-- The records that channel m's tracks form at a cut at K, in slot order: the lower piece of a track that reaches
beyond K, and the whole of one that ends at or below it (R113, R114, R116). -/
def Channel.split (c : Channel) (m : ChannelId) (g : StrandConfig) (k : Nat) : List DefectRecord :=
  (c.tt.followed.filter fun t => decide (t.start < k)).map fun t =>
    if t.last + g.countsPerLine ≤ k then t.record m c.cfg.face g
    else { t.record m c.cfg.face g with stop := k, lengthMm := g.lengthMm (k - t.start), continues := true }

/-- Of the longitudinal records formed under a min_defect_mm, those that reach BAn: pieces, and records that are long
enough (R109). -/
def longOnes (minMm : Nat) (formed : List DefectRecord) : List DefectRecord :=
  formed.filter fun r => r.continues || r.continued || decide (minMm ≤ r.lengthMm)

/-- The min_defect_mm of the last line handled, by which records are judged outside hand-overs (R110). -/
def TrackTable.minDefectMm (tt : TrackTable) : Nat :=
  match tt.lastLine with
  | none => 0
  | some l => l.recipe.minDefectMm

/-- Of channel m's counters, emitted and TOO_SHORT have risen by the records formed, and no other has moved (R109,
R117). -/
def Channel.Emitted (c d : Channel) (formed : List DefectRecord) : Prop :=
  let sent := (longOnes c.tt.minDefectMm formed).length
  ∀ k : ChannelCounter,
    d.stats[channelIndex k] =
      c.stats[channelIndex k] +
        if k = .recordsEmitted then BitVec.ofNat 32 sent
        else if k = .tooShort then BitVec.ofNat 32 (formed.length - sent)
        else 0

/-! ### The report of a closing billet -/

/-- A limit of a report is the smallest of the entries' values that is set, and 0 when none is (R137). -/
def SmallestSet (limit : Nat) (values : List Nat) : Prop :=
  (limit = 0 ↔ ∀ v ∈ values, v = 0) ∧ (limit ≠ 0 → limit ∈ values) ∧ ∀ v ∈ values, v ≠ 0 → limit ≤ v

/-- A value is the greatest of a list, 0 for the empty one (R135, R137). -/
def Greatest (value : Nat) (values : List Nat) : Prop := (value = 0 ∨ value ∈ values) ∧ ∀ v ∈ values, v ≤ value

/-- The place of a length among the five bins: below 20, 20 to 49, 50 to 99, 100 to 199, 200 mm or more (R135). -/
def lengthBin (mm : Nat) : Nat := ([20, 50, 100, 200].filter fun low => decide (low ≤ mm)).length

/-- The lengths of the longitudinal records of a closing set (R135, R139). -/
def longLengths (closing : List DefectRecord) : List Nat := (closing.filter isLongitudinal).map (·.lengthMm)

/-- The history entries in force somewhere in [head, tail): the newest at or below head, and those above head and
below tail (R131). -/
def entriesIn (head tail : Nat) (h : List HistoryEntry) : List HistoryEntry :=
  (h.filter fun e => decide (e.coord ≤ head)).getLast?.toList ++
    h.filter fun e => decide (head < e.coord) && decide (e.coord < tail)

/-- The limits of a report are the strictest of the recipes of the entries taken (R137). -/
def Limits.StrictestOf (l : Limits) (taken : List HistoryEntry) : Prop :=
  SmallestSet l.rejectSingle (taken.map (·.recipe.rejectSingle)) ∧
    SmallestSet l.rejectTotal (taken.map (·.recipe.rejectTotal)) ∧
    SmallestSet l.conditionSingle (taken.map (·.recipe.conditionSingle)) ∧
    SmallestSet l.conditionCount (taken.map (·.recipe.conditionCount)) ∧
    SmallestSet l.transReject (taken.map (·.recipe.transReject)) ∧
    Greatest l.coverageMin (taken.map (·.recipe.coverageMin))

/-- The summary of the face that channel m views, over a closing set, with the lines of m's log below the tail and the
flags that the open billet held (R130, R135). -/
def FaceSummary.Sums (f : FaceSummary) (m : ChannelId) (c : Channel) (flags : FaceFlags) (pitch tail : Nat)
    (closing : List DefectRecord) : Prop :=
  let mine := closing.filter fun r => decide (r.channel = m)
  let lines := fun cls : Coverage =>
    ((logCells pitch c.lp.log).filter fun x => decide (x.1 < tail) && decide (x.2 = cls)).length
  f.channel = m ∧ f.face = c.cfg.face ∧ f.flags = flags ∧ f.longCount = (longLengths mine).length ∧
    f.totalMm = min 65535 (longLengths mine).sum ∧ Greatest f.longestMm (longLengths mine) ∧
    (∀ i : Fin 5, f.bins[i] = ((longLengths mine).filter fun mm => decide (lengthBin mm = i.val)).length) ∧
    f.transCount = (mine.filter fun r => decide (r.kind = .transverse)).length ∧
    (1 ≤ pitch → f.inspected = lines .inspected ∧ f.obscured = lines .obscured ∧ f.unavailable = lines .unavailable)

/-- The face summaries of a report: one for each face that an enabled channel of strand n views, in the order A to D
(R134, R135). -/
def FacesOf (n : StrandId) (b : OpenBillet) (tail : Nat) (closing : List DefectRecord) (s : State)
    (faces : List FaceSummary) : Prop :=
  let on := fun m : ChannelId => (s.channel m).cfg.enabled = true ∧ (s.channel m).cfg.strand = n
  (faces.map (faceIndex ·.face)).Pairwise (· < ·) ∧ (∀ m, on m → ∃ f ∈ faces, f.face = (s.channel m).cfg.face) ∧
    ∀ f ∈ faces, ∃ m, on m ∧
      f.Sums m (s.channel m) (b.faces[faceIndex f.face].getD ⟨false, false, false⟩) (s.strand n).cfg.countsPerLine tail
        closing

/-- The listed records: the first 32 of the closing set by falling length in counts, then by rising start, records
equal in both in the order of the closing set (R136). -/
def Lists (closing records : List DefectRecord) : Prop :=
  ∃ listed : List DefectRecord,
    records = listed.take 32 ∧
      (listed.Pairwise fun a b =>
        b.stop - b.start < a.stop - a.start ∨ b.stop - b.start = a.stop - a.start ∧ a.start ≤ b.start) ∧
      ∀ counts start : Nat,
        let alike := fun r : DefectRecord => decide (r.stop - r.start = counts) && decide (r.start = start)
        listed.filter alike = closing.filter alike

/-- What the close counters of strand n come to (R139): billets closed and the grade's counter up by one, each length
bin up by the closing set's records in it. -/
def CloseCounted (n : StrandId) (grade : Grade) (closing : List DefectRecord) (s t : State) : Prop :=
  t.strandCount n .billetsClosed = s.strandCount n .billetsClosed + 1 ∧
    (∀ g : Grade, t.strandCount n (gradeCounter g) = s.strandCount n (gradeCounter g) + if g = grade then 1 else 0) ∧
    ∀ i : Fin 5, t.strandCount n (binCounter i) =
      s.strandCount n (binCounter i) +
        BitVec.ofNat 32 ((longLengths closing).filter fun mm => decide (lengthBin mm = i.val)).length

/-- The billet `b` of strand n, open in `s`, is closed in `t` at a tail with a closing set, DEFECTS_DROPPED as given:
its report `r` holds what R130 to R138 give it, the close counters are raised (R139), and it stands last in the report
queue, into a full queue only after the oldest is gone, which is counted REPORT_LOST, and then with PRIOR_LOSS (R140,
R141). -/
def ReportOf (n : StrandId) (b : OpenBillet) (dropped : Bool) (tail : Nat) (stopped : Bool)
    (closing : List DefectRecord) (s t : State) (r : BilletReport) : Prop :=
  let x := s.strand n
  let taken := entriesIn b.head tail x.history
  t.rq = (if s.rq.length < 8 then s.rq else s.rq.drop 1) ++ [r] ∧
    t.linkCount .reportLost = s.linkCount .reportLost + (if s.rq.length < 8 then 0 else 1) ∧ r.strand = n ∧
    r.number = b.number ∧ r.head = b.head ∧ r.tail = tail ∧ r.lengthMm = x.cfg.lengthMm (tail - b.head) ∧
    r.flags =
      ⟨b.first, b.forecastLost, dropped, stopped, decide (1 < taken.length), taken.any (·.merged),
        decide (32 < closing.length), decide (8 ≤ s.rq.length)⟩ ∧
    r.entries = taken.map (fun e => ⟨e.coord, e.slot, e.revision, e.recipe.name, e.merged⟩) ∧
    r.limits.StrictestOf taken ∧ FacesOf n b tail closing s r.faces ∧ Lists closing r.records ∧ r.GradedInOrder ∧
    CloseCounted n r.grade closing s t

/-! ### What a stop and a cut leave -/

/-- What the end of a cast leaves of strand n (R14, R19, R61, R155, R158): IDLE with its queues, history and billet
gone, TRIGn low, and every value that shows where the cast ended kept. -/
def Strand.Ended (x y : Strand) (lastCut : Nat) : Prop :=
  y.state = .idle ∧ y.forecasts = [] ∧ y.schedule = [] ∧ y.history = [] ∧ y.billet = none ∧ y.defects = [] ∧
    y.trig = false ∧ y.cfg = x.cfg ∧ y.travel = x.travel ∧ y.high = x.high ∧ y.nextTrigger = x.nextTrigger ∧
    y.lastTrigger = x.lastTrigger ∧ y.lastCut = lastCut ∧ y.billetCounter = x.billetCounter

/-- What the end of a cast leaves of one of its channels, whose tracks formed the given records (R35, R52, R75, R87,
R95, R109): IDLE, unseeded, its counts 0 and its log empty, its slots FREE, no await; its configuration, framing and
tag offset kept; the last expected tag absent after an abandoned await (log 24 for the receiver that was QUIET). -/
def Channel.Ended (c d : Channel) (formed : List DefectRecord) : Prop :=
  d.lp = LineProcessor.initial .idle ∧ d.tt.Empty ∧ d.cfg = c.cfg ∧ d.rx.framing = c.rx.framing ∧
    d.rx.tagOffset = c.rx.tagOffset ∧ d.rx.await = .quiet ∧
    d.rx.lastExpected = (if c.rx.await = .quiet then c.rx.lastExpected else none) ∧ c.Emitted d formed

/-- The strand counters that a close may raise (R126, R133, R139). -/
def ofClose : StrandCounter → Bool
  | .billetsClosed | .accept | .condition | .unverified | .reject | .bin0 | .bin20 | .bin50 | .bin100 | .bin200 => true
  | .defectDrop | .tailDiscarded => true
  | .triggers | .reverseAtZero | .forecasts | .forecastDrop | .cutsAccepted | .cutEarly | .doubleCut | .cutIdle => false

/-- The blocks that no event of strand n touches: the other strands, the channels that are not enabled on it, the
store, the supervisor, the queue of commands, and the host link but for the notices it takes. -/
def OthersKept (n : StrandId) (s t : State) : Prop :=
  (∀ j, j ≠ n → t.strand j = s.strand j) ∧
    (∀ m, ¬((s.channel m).cfg.enabled = true ∧ (s.channel m).cfg.strand = n) → t.channel m = s.channel m) ∧
    t.store = s.store ∧ t.sup = s.sup ∧ t.pending = s.pending ∧ LinkGrows s t

/-- Each lock that a channel of strand n was in is left in the strand's going IDLE, with a CHANNEL_LOCK notice of cause
STRAND_IDLE and the last triggered line coordinate (R87; log 36 for that coordinate at the end of FINISHING). -/
def LocksLeft (n : StrandId) (s t : State) : Prop :=
  ∀ m, (s.channel m).cfg.enabled = true → (s.channel m).cfg.strand = n →
    ((∃ left, (s.channel m).lp.state = .softLock left) →
      OfferedAmong .channelLock (lockBody m n 0x01#8 0x00#8 0x07#8 (s.strand n).lastTrigger) s t) ∧
      ((∃ cause, (s.channel m).lp.state = .hardLock cause) →
        OfferedAmong .channelLock (lockBody m n 0x01#8 0x01#8 0x07#8 (s.strand n).lastTrigger) s t)

/-- A stop of strand n with the given reason code (R14, R15, R132): the cast ended, the tracks flushed channel by
channel in some order (log 8) into what room the pending queue of 96 has (R126), the billet closed at H with STOPPED
from the whole of that queue, its notices offered first, then the leaving of each lock, and a STRAND_STATE notice
offered last (R87, R140, R141; log 11, a DEDUCED order; and log 24, by `Channel.Ended`, for the last expected tag of a
QUIET receiver). -/
def StoppedWith (n : StrandId) (reason : Nat) (s t : State) : Prop :=
  let x := s.strand n
  (s.strand n).Ended (t.strand n) (s.strand n).lastCut ∧
    (∀ m, (s.channel m).cfg.enabled = true → (s.channel m).cfg.strand = n →
      (s.channel m).Ended (t.channel m) ((s.channel m).flushed m x.cfg)) ∧
    (∃ order : List ChannelId, order.Perm (s.channelsOf n) ∧
      let emitted := order.flatMap fun m => longOnes (s.channel m).tt.minDefectMm ((s.channel m).flushed m x.cfg)
      let room := 96 - x.defects.length
      t.strandCount n .defectDrop = s.strandCount n .defectDrop + BitVec.ofNat 32 (emitted.length - room) ∧
        t.strandCount n .tailDiscarded = s.strandCount n .tailDiscarded ∧
        ∀ b, x.billet = some b →
          ∃ r, ReportOf n b (b.defectsDropped || decide (room < emitted.length)) x.high true
            (x.defects ++ emitted.take room) s t r ∧ LinkGrows (s.offers (s.reportNotices r)) t) ∧
    LocksLeft n s t ∧
    (∀ k, ofClose k = false → t.strandCount n k = s.strandCount n k) ∧ OthersKept n s t ∧
    OfferedLast .strandState (byte n.val ++ [0x00#8] ++ byte reason ++ le 4 (s.strand n).high) s t

/-- Strand n accepts a cut (R18): it casts, H has reached the torch offset, and K lies more than P beyond the last
cut. -/
abbrev State.AcceptsCut (s : State) (n : StrandId) : Prop :=
  (s.strand n).state ≠ .idle ∧ (s.strand n).cfg.torchOffset ≤ (s.strand n).high ∧
    (s.strand n).lastCut + (s.strand n).cfg.countsPerLine < (s.strand n).high - (s.strand n).cfg.torchOffset

/-- The coordinate of a cut taken now (R17). -/
def State.cutAt (s : State) (n : StrandId) : Nat := (s.strand n).high - (s.strand n).cfg.torchOffset

/-- The command `c` is a cut of strand n, taken on `s'` (R17): a CUT_EDGE as the state stands, a CUT_STRAND after its
reply, which carries the outcome code and K. -/
def CutOn (c : Instr) (n : StrandId) (outcome k : Nat) (s s' : State) : Prop :=
  s.Runs ∧
    (c = .cutEdge n ∧ s' = s.putStrand n { s.strand n with cutLevel := true } ∨
      c = .cutStrand ∧
        ∃ tag, s.Takes ⟨0x08#8, tag, byte n.val⟩ ∧
          s' = s.answered ⟨0x08#8, tag, byte n.val⟩ ([0x00#8] ++ byte outcome ++ le 4 k))

/-- The closing set of a cut of strand n at K: the splits, channel by channel in ascending number, then of the pending
queue, in its order, the records that end at or below K and the lower pieces of those that straddle it (R128, R129).
-/
def State.closingAt (s : State) (n : StrandId) (k : Nat) : List DefectRecord :=
  let x := s.strand n
  ((s.channelsOf n).flatMap fun m => longOnes (s.channel m).tt.minDefectMm ((s.channel m).split m x.cfg k)) ++
    x.defects.flatMap fun d =>
      if d.stop ≤ k then [d]
      else if k ≤ d.start then []
      else [{ d with stop := k, lengthMm := x.cfg.lengthMm (k - d.start), continues := true }]

/-- What an accepted cut in CASTING leaves of the strand (R19, R124, R155): the cast goes on, the last cut coordinate
is K, the next billet is open at K under the next number, and of the history only entries wholly below K are gone. -/
def Strand.CutAt (x y : Strand) (k : Nat) : Prop :=
  y.state = .casting ∧ y.cfg = x.cfg ∧ y.travel = x.travel ∧ y.high = x.high ∧ y.nextTrigger = x.nextTrigger ∧
    y.lastTrigger = x.lastTrigger ∧ y.forecasts = x.forecasts ∧ y.schedule = x.schedule ∧ y.trig = x.trig ∧
    y.lastCut = k ∧ y.billetCounter = x.billetCounter + 1 ∧
    (∃ b, y.billet = some b ∧ b.number = x.billetCounter ∧ b.head = k ∧ b.first = false ∧ b.forecastLost = false ∧
      b.defectsDropped = false) ∧
    y.history <:+ x.history ∧ (x.history ≠ [] → y.history ≠ []) ∧
    (∀ a b rest, y.history = a :: b :: rest → k < b.coord) ∧
    (y.history ≠ x.history → ∃ e rest, y.history = e :: rest ∧ e.coord ≤ k)

/-- The face flag entries of a billet that opens on strand n: one for each face that an enabled channel of the strand
views, TABLE_FULL and RUN_OVERFLOW clear, HARD_LOCKED set exactly when that channel is in HARD_LOCK (R124). -/
def FacesOpened (n : StrandId) (s : State) (faces : Vector (Option FaceFlags) 4) : Prop :=
  let on := fun m : ChannelId => (s.channel m).cfg.enabled = true ∧ (s.channel m).cfg.strand = n
  ∀ f : Face,
    (faces[faceIndex f] = none ∧ ∀ m, on m → (s.channel m).cfg.face ≠ f) ∨
      ∃ m locked, on m ∧ (s.channel m).cfg.face = f ∧ faces[faceIndex f] = some ⟨false, false, locked⟩ ∧
        (locked = true ↔ ∃ cause, (s.channel m).lp.state = .hardLock cause)

/-- What an accepted cut in CASTING leaves of a channel of the strand, but for the slots of its CONFIRMED and COASTING
tracks (R113, R117, R130): everything, with the lines below K, and no others, gone from the coverage log, expired
TENTATIVE tracks freed, and the records of the split counted. -/
def Channel.CutAt (c d : Channel) (m : ChannelId) (g : StrandConfig) (k : Nat) : Prop :=
  d.cfg = c.cfg ∧ d.rx = c.rx ∧ d.lp = { c.lp with log := d.lp.log } ∧ (∀ seg ∈ d.lp.log, k ≤ seg.start) ∧
    logCells g.countsPerLine d.lp.log =
      (logCells g.countsPerLine c.lp.log).filter (fun x => decide (k ≤ x.1)) ∧
    d.tt.lastLine = c.tt.lastLine ∧
    (∀ i : SlotId, (c.tt.slots[i] = none ∨ ∃ t, c.tt.slots[i] = some t ∧ t.state = .tentative) →
      d.tt.slots[i] =
        match c.tt.lastLine with
        | none => c.tt.slots[i]
        | some l => c.tt.unexpired g.countsPerLine l.coord i) ∧
    c.Emitted d (c.split m g k)

/-! ### What a settled line touches -/

/-- What the settlement of a line of channel m leaves alone: the other channels and the other strands; of its own
strand all but the billet's flags, the pending records and the counters; the report queue, the store, the supervisor,
the queue of commands, and the host link but for the notices it takes, none of them for a lost report. -/
def LineKept (m : ChannelId) (s t : State) : Prop :=
  (∀ j, j ≠ m → t.channel j = s.channel j) ∧ (t.channel m).cfg = (s.channel m).cfg ∧
    (∀ n, n ≠ (s.channel m).cfg.strand → t.strand n = s.strand n) ∧
    (∀ n, n = (s.channel m).cfg.strand → t.strand n =
      { s.strand n with
        billet := (t.strand n).billet, defects := (t.strand n).defects, stats := (t.strand n).stats }) ∧
    t.rq = s.rq ∧ t.store = s.store ∧ t.sup = s.sup ∧ t.pending = s.pending ∧ LinkGrows s t ∧
    t.linkCount .reportLost = s.linkCount .reportLost

/-- The counters of a channel that its receiver raises (R25 to R33). -/
def ofReceiver : ChannelCounter → Bool
  | .linesTaken | .groupCheck | .frameError | .stray | .late | .missed | .headFault | .format | .tagMismatch => true
  | .obscuredLines | .narrowRuns | .wideRuns | .mark | .transverse | .runOverflow | .tracksOpened | .tracksConfirmed
  | .recordsEmitted | .tooShort | .tableFull | .softEntries | .hardEntries => false

/-- Channel m is enabled and its strand casts: its frames are classified by R25 (R24). -/
abbrev State.InCast (s : State) (m : ChannelId) : Prop :=
  (s.channel m).cfg.enabled = true ∧ (s.strand (s.channel m).cfg.strand).state ≠ .idle

/-- The frame `f` is the one in reception on channel m, and completes with a good CRC (R23). -/
abbrev State.Completes (s : State) (m : ChannelId) (f : ScanFrame) : Prop :=
  (s.channel m).rx.framing = .receiving f.header ∧ f.groupBytes.length = 13 * f.header.groups.toNat ∧
    f.crc = crc16 ([f.header.headId, f.header.status, f.header.tag, f.header.groups] ++ f.groupBytes)

/-- A frame passes checks 2 to 4 of R25 on channel m: its head id, no HEAD_FAULT, its column groups. -/
abbrev State.Accepts (s : State) (m : ChannelId) (f : ScanFrame) : Prop :=
  f.header.headId = (s.channel m).cfg.headId ∧ f.header.status.getLsbD 0 = false ∧
    f.header.groups.toNat = (s.channel m).cfg.groups

/-- `s` with one counter of channel m raised and its receiver replaced: the whole effect of a frame that settles no
line. -/
def State.setAside (s : State) (m : ChannelId) (c : ChannelCounter) : State :=
  s.putChannel m
    { s.channel m with
      rx := { (s.channel m).rx with framing := .hunting }
      stats := (s.channel m).stats.set (channelIndex c) ((s.channel m).stats[channelIndex c] + 1) }

/-- A line of channel m still has a recipe and is handled: the channel is in none of DISABLED and IDLE. -/
def State.Handles (s : State) (m : ChannelId) (line : Nat) : Prop :=
  (s.channel m).lp.state ≠ .disabled ∧ (s.channel m).lp.state ≠ .idle ∧
    ∃ e ∈ (s.strand (s.channel m).cfg.strand).history, e.coord ≤ line

/-- The await of channel m for a line has ended with one settlement (R32): the receiver is QUIET with the given last
expected tag and tag offset, the given counter has risen by one and no other counter of the receiver has moved, the
line stands in the coverage log (R89), and nothing else than a settlement may touch is changed. -/
def Settles (m : ChannelId) (line : Nat) (last offset : Byte) (framing : Framing) (c : ChannelCounter) (s t : State) :
    Prop :=
  (t.channel m).rx = ⟨framing, .quiet, some last, offset, none⟩ ∧ t.channelCount m c = s.channelCount m c + 1 ∧
    (∀ k, ofReceiver k = true → k ≠ c → k ≠ .groupCheck → t.channelCount m k = s.channelCount m k) ∧
    (s.Handles m line → logLines (t.channel m).lp.log = logLines (s.channel m).lp.log + 1) ∧ LineKept m s t

/-! ### What a settlement shows of the face (R76, R77) -/

/-- A settled line was not delivered, was delivered and obscured, or was delivered and clear (R76, R77). -/
inductive Sight where
  | lost
  | obscured
  | clear
  deriving DecidableEq, Repr

/-- The command `c` ends a frame of channel m with a framing failure (R23, R25 check 1; log 6 for a gap in the
header): a gap, a failed CRC, or a header that cannot delimit a frame. -/
def State.FailsFraming (s : State) (m : ChannelId) (c : Instr) : Prop :=
  c = .scanGapTimeout m false ∧ (∃ h, (s.channel m).rx.framing = .receiving h) ∨
    c = .scanGapTimeout m true ∧ (s.channel m).rx.framing = .hunting ∨
    (∃ f, c = .scanFrame m f ∧ (s.channel m).rx.framing = .receiving f.header ∧
      f.groupBytes.length = 13 * f.header.groups.toNat ∧
      f.crc ≠ crc16 ([f.header.headId, f.header.status, f.header.tag, f.header.groups] ++ f.groupBytes)) ∨
    ∃ f, c = .scanFrame m f ∧ (s.channel m).rx.framing = .hunting ∧
      (f.header.groups.toNat < 4 ∨ 32 < f.header.groups.toNat)

/-- A column of a line cannot be used: its group failed, its sample is void, or, where seeding is over, it is unseeded
(R40, R76). -/
def LineProcessor.unusable (lp : LineProcessor) (samples : List Sample) (j : Nat) : Bool :=
  let x := samples.getD j ⟨0, true⟩
  x.invalid || x.value == 0 || x.value == 4095 || lp.state.tracking && !(lp.columns.getD j ⟨0, false⟩).seeded

/-- The obscured-line test: 100 × u at or above obscure_pct × W, over the window's columns (R39, R76). -/
def Channel.obscures (c : Channel) (r : Recipe) (samples : List Sample) : Bool :=
  let window := (List.range (8 * c.cfg.groups)).filter fun j =>
    decide (r.leftMargin ≤ j) && decide (j + r.rightMargin < 8 * c.cfg.groups)
  decide (r.obscurePct * (8 * c.cfg.groups - r.leftMargin - r.rightMargin) ≤
    100 * (window.filter (c.lp.unusable samples)).length)

/-- The command `c` settles the awaited line of channel m, of recipe `r`, and this is what it shows of the face:
nothing when the wait expires or a frame discards the line (R25, R27, R31, but for HEAD_FAULT), and the outcome of the
obscured-line test when the frame is taken (R33, R76). -/
def State.Shows (s : State) (m : ChannelId) (k : Nat) (expected : Byte) (r : Recipe) (c : Instr) : Sight → Prop
  | .lost =>
    c = .lineWaitExpiry m k ∨
      s.InCast m ∧
        (s.FailsFraming m c ∨
          ∃ f, c = .scanFrame m f ∧ s.Completes m f ∧ f.header.headId = (s.channel m).cfg.headId ∧
            f.header.status.getLsbD 0 = false ∧
            (f.header.groups.toNat ≠ (s.channel m).cfg.groups ∨
              f.header.tag ≠ expected ∧ f.header.tag ≠ expected - 1))
  | .obscured =>
    ∃ f, c = .scanFrame m f ∧ s.InCast m ∧ s.Completes m f ∧ s.Accepts m f ∧ f.header.tag = expected ∧
      (s.channel m).obscures r (frameSamples f) = true
  | .clear =>
    ∃ f, c = .scanFrame m f ∧ s.InCast m ∧ s.Completes m f ∧ s.Accepts m f ∧ f.header.tag = expected ∧
      (s.channel m).obscures r (frameSamples f) = false

/-- The coverage class of a settled line, by the state in which it is handled (R89). -/
def Sight.coverage : Sight → ChannelState → Coverage
  | _, .hardLock _ => .unavailable
  | .lost, _ => .unavailable
  | _, .softLock _ => .obscured
  | .obscured, _ => .obscured
  | .clear, .active => .inspected
  | .clear, _ => .unavailable

/-- Channel m enters HARD_LOCK at the end of a line (R84): unseeded, its counts 0, its log kept as the line left it,
its slots FREE, the entry counted, and HARD_LOCKED set on its face of the open billet. -/
def LocksHard (m : ChannelId) (cause : HardCause) (s t : State) : Prop :=
  (t.channel m).lp = { LineProcessor.initial (.hardLock cause) with log := (t.channel m).lp.log } ∧
    (t.channel m).tt.Empty ∧ t.channelCount m .hardEntries = s.channelCount m .hardEntries + 1 ∧
    (∀ b, (s.strandOf m).billet = some b →
      ∃ b', (t.strandOf m).billet = some b' ∧ b'.number = b.number ∧ b'.head = b.head ∧
        b'.faces[faceIndex (s.channel m).cfg.face] =
          b.faces[faceIndex (s.channel m).cfg.face].map fun g => { g with hardLocked := true })

/-- A line that shows the given sight is handled by a channel in the given state and not processed: in HARD_LOCK and
SOFT_LOCK any line, in WARMUP and ACTIVE one without sight of the face (R41, R77 to R79, R85). -/
def Sight.unprocessed (sight : Sight) : ChannelState → Prop
  | .disabled | .idle => False
  | .warmup | .active => sight ≠ .clear
  | .softLock _ | .hardLock _ => True

/-- What the line at `coord` of recipe `r`, handled by channel m and not processed, leaves of the channel's locks, log
and tracks; `notified` says of a change of lock, LEFT 1 or ENTERED 0, HARD 1 or SOFT 0, and a cause code that its
CHANNEL_LOCK notice was offered with the line's coordinate (R76 to R81, R84, R85, R87, R89, R98). -/
def LocksMove (m : ChannelId) (coord : Nat) (r : Recipe) (sight : Sight) (notified : Byte → Byte → Byte → Prop)
    (s t : State) : Prop :=
  let lp := (s.channel m).lp
  let lp' := (t.channel m).lp
  let link := if sight = .lost then lp.linkRun + 1 else 0
  let dead := sight = .lost ∧ r.missedLimit ≤ link
  let clearRun := if sight = .clear then lp.clearRun + 1 else 0
  let held := HeldBy (s.strandOf m).cfg.countsPerLine coord r (s.channel m).tt (t.channel m).tt
  let locked := ∃ cause, lp.state = .hardLock cause
  lp'.log = enterCoverage coord (sight.coverage lp.state) lp.log ∧
    (¬locked →
      t.channelCount m .obscuredLines = s.channelCount m .obscuredLines + (if sight = .obscured then 1 else 0)) ∧
    (∀ left : LeftState, lp.state = leftChannelState left →
      (dead → LocksHard m .link s t ∧ notified 0x00#8 0x01#8 0x01#8) ∧
        (¬dead → lp.obscuredRun < 2 →
          lp' = { lp with linkRun := link, obscuredRun := lp.obscuredRun + 1, log := lp'.log } ∧ held) ∧
        (¬dead → 2 ≤ lp.obscuredRun →
          lp' =
              { lp with
                state := .softLock left, linkRun := link, obscuredRun := lp.obscuredRun + 1, clearRun := 0,
                softCount := 0, log := lp'.log } ∧
            held ∧ t.channelCount m .softEntries = s.channelCount m .softEntries + 1 ∧
            notified 0x00#8 0x00#8 0x00#8)) ∧
    (∀ left : LeftState, lp.state = .softLock left →
      (dead → LocksHard m .link s t ∧ notified 0x00#8 0x01#8 0x01#8) ∧
        (¬dead → 3 ≤ clearRun →
          lp' =
              { lp with
                state := leftChannelState left, linkRun := link, obscuredRun := 0, clearRun := 0, softCount := 0,
                log := lp'.log } ∧
            held ∧ notified 0x01#8 0x00#8 0x04#8) ∧
        (¬dead → clearRun < 3 → r.softLockMax < lp.softCount + 1 →
          LocksHard m .obscured s t ∧ notified 0x00#8 0x01#8 0x00#8) ∧
        (¬dead → clearRun < 3 → lp.softCount + 1 ≤ r.softLockMax →
          lp' = { lp with linkRun := link, clearRun := clearRun, softCount := lp.softCount + 1, log := lp'.log } ∧
            held)) ∧
    (locked →
      lp' = { lp with log := lp'.log } ∧ held ∧
        ∀ k : ChannelCounter, k = .obscuredLines ∨ k = .softEntries ∨ k = .hardEntries →
          t.channelCount m k = s.channelCount m k)

/-! ### What a processed ACTIVE line hands over -/

/-- The hits of an ACTIVE line in column order, each with its residual (R40, R43, R44, R48). -/
def LineProcessor.hitsOn (lp : LineProcessor) (r : Recipe) (groups : Nat) (samples : List Sample) : List (Nat × Nat) :=
  (List.range (8 * groups)).filterMap fun j =>
    let x := samples.getD j ⟨0, true⟩
    let col := lp.columns.getD j ⟨0, false⟩
    let d : Int := 16 * x.value - col.baseline
    let residual : Int := if r.polarity = .dark then (-d).tdiv 16 else d.tdiv 16
    if r.leftMargin ≤ j ∧ j + r.rightMargin < 8 * groups ∧ x.invalid = false ∧ x.value ≠ 0 ∧ x.value ≠ 4095 ∧
        col.seeded = true ∧ (r.hitThreshold : Int) ≤ residual then
      some (j, residual.toNat)
    else none

/-- The outcome of a hit (R104). -/
def Track.afterHit (t : Track) (line confirmLines : Nat) (run : Run) : Track :=
  let counted := decide (t.hitLines < 65535)
  let hits := if counted then t.hitLines + 1 else t.hitLines
  { state := if t.state = .tentative ∧ hits < confirmLines then .tentative else .confirmed
    start := t.start
    last := line
    centre := run.centre
    minCol := min t.minCol run.first
    maxCol := max t.maxCol run.last
    hitLines := hits
    peakSum := if counted then t.peakSum + run.peak else t.peakSum
    peakMax := max t.peakMax run.peak
    missRun := 0
    gapLines := min 65535 (t.gapLines + t.missRun)
    continued := t.continued }

/-- A track with one more miss: COASTING but while TENTATIVE (R106, R107). -/
def Track.missed (t : Track) : Track :=
  { t with state := if t.state = .tentative then .tentative else .coasting, missRun := t.missRun + 1 }

/-- A miss ends a track: a TENTATIVE one at its second in a row, any other when more than gap_max stand in a row
(R106, R107). -/
def Track.lost (t : Track) (gapMax : Nat) : Bool :=
  decide ((if t.state = .tentative then 1 else gapMax) < t.missRun + 1)

/-- Narrow run number `j` goes by R99 to R102 to slot `given[j]`, the runs before it having gone to theirs: to the
candidate at the smallest distance, then of the smallest start, then in the lowest slot; without a candidate to the
lowest slot that is FREE; and to none when there is none. `old` is the table as the line finds it. -/
def GivenByR99 (gate : Nat) (narrow : List Run) (old : SlotId → Option Track) (given : List (Option SlotId)) : Prop :=
  given.length = narrow.length ∧
    ∀ (j : Nat) (run : Run), narrow[j]? = some run →
      let untaken : SlotId → Prop := fun i => some i ∉ given.take j
      let may : SlotId → Track → Prop := fun i t => old i = some t ∧ untaken i ∧ columnsApart run.centre t.centre ≤ gate
      let free : SlotId → Prop := fun i => old i = none ∧ untaken i
      match given[j]?.join with
      | some i =>
        (∃ t, may i t ∧ ∀ i' t', may i' t' →
          columnsApart run.centre t.centre < columnsApart run.centre t'.centre ∨
            columnsApart run.centre t.centre = columnsApart run.centre t'.centre ∧
              (t.start < t'.start ∨ t.start = t'.start ∧ i ≤ i')) ∨
          (∀ i' t', ¬may i' t') ∧ free i ∧ ∀ i', free i' → i ≤ i'
      | none => (∀ i t, ¬may i t) ∧ ∀ i, ¬free i

/-- What an association hand-over of a line does to the table `tt` (R96, R97, R99 to R107): expiry, the runs given
out, and in each slot the outcome: the track opened, the hit, the track as it was under a wide span, or the miss,
which may end it. The tracks closed come in slot order. -/
def AssociationOf (pitch line : Nat) (r : Recipe) (narrow spans : List Run) (tt : TrackTable) (a : Association) : Prop :=
  let old := tt.unexpired pitch line
  ∃ given : List (Option SlotId), GivenByR99 r.gate narrow old given ∧
    let runOf : SlotId → Option Run := fun i => ((given.zip narrow).find? fun p => decide (p.1 = some i)).map (·.2)
    let covers : Track → Bool := fun t => spans.any fun w => decide (w.first ≤ t.centre) && decide (t.centre ≤ w.last)
    let confirms : SlotId → Bool := fun i =>
      match old i, runOf i with
      | some t, some run => decide (t.state = .tentative ∧ (t.afterHit line r.confirmLines run).state = .confirmed)
      | _, _ => false
    a.table.lastLine = some ⟨line, r⟩ ∧
      (∀ i : SlotId,
        a.table.slots[i] =
          match old i, runOf i with
          | none, none => none
          | none, some run =>
            some ⟨.tentative, line, line, run.centre, run.first, run.last, 1, run.peak, run.peak, 0, 0, false⟩
          | some t, some run => some (t.afterHit line r.confirmLines run)
          | some t, none => if covers t then some t else if t.lost r.gapMax then none else some t.missed) ∧
      a.closed =
        (allSlots.filterMap fun i =>
          match old i, runOf i with
          | some t, none =>
            if !covers t && t.lost r.gapMax && decide (t.state ≠ .tentative) then some t.missed else none
          | _, _ => none) ∧
      a.opened = (allSlots.filter fun i => (old i).isNone && (runOf i).isSome).length ∧
      a.confirmed = (allSlots.filter confirms).length ∧ a.dropped = (given.filter (·.isNone)).length

/-! ### Line triggers -/

/-- The hypotheses of a line trigger: a forward count raises H to the next trigger coordinate, and a line is due there
(R4, R8). -/
abbrev State.Triggers (s : State) (n : StrandId) (input : EncInput) : Prop :=
  s.Runs ∧ (s.strand n).state ≠ .idle ∧
    movesForward (s.strand n).cfg.sign (s.strand n).phase (pairAfter (s.strand n).phase input) = true ∧
    (s.strand n).high ≤ (s.strand n).travel ∧ (s.strand n).travel + 1 = (s.strand n).nextTrigger ∧
    (s.strand n).nextTrigger + (s.strand n).cfg.countsPerLine ≤ maxCoord

/-- What the trigger itself does to its strand, whatever the lines it settles: T and H at the line, the next trigger
one pitch on, TRIGn high, Triggers raised by one (R4, R8, R10). -/
def Strand.TriggeredFrom (x y : Strand) : Prop :=
  y.state = x.state ∧ y.cfg = x.cfg ∧ y.travel = x.nextTrigger ∧ y.high = x.nextTrigger ∧
    y.lastTrigger = x.nextTrigger ∧ y.nextTrigger = x.nextTrigger + x.cfg.countsPerLine ∧ y.trig = true ∧
    y.lastCut = x.lastCut ∧ y.billetCounter = x.billetCounter ∧ y.stats[0] = x.stats[0] + 1

/-- At the trigger of strand n every enabled channel of the strand awaits the line, a line still awaited being settled
MISSED first: the receiver differs in nothing else (R30). -/
def Reopened (n : StrandId) (s t : State) : Prop :=
  ∀ m, (s.channel m).cfg.enabled = true → (s.channel m).cfg.strand = n →
    let x := s.strand n
    let rx := (s.channel m).rx
    let k := x.nextTrigger / x.cfg.countsPerLine
    let opened : Option Byte → Receiver := fun last =>
      { rx with
        await := .awaiting k x.nextTrigger (BitVec.ofNat 8 k + rx.tagOffset)
        lastExpected := last
        timer := some x.cfg.lineWaitUs }
    (rx.await = .quiet →
      (t.channel m).rx = opened rx.lastExpected ∧ t.channelCount m .missed = s.channelCount m .missed) ∧
      ∀ k' line expected, rx.await = .awaiting k' line expected →
        (t.channel m).rx = opened (some expected) ∧ t.channelCount m .missed = s.channelCount m .missed + 1

/-! ### Recipes as received -/

/-- A recipe whose numbers fit the widths of the record (12, "Recipe record"). -/
def Recipe.Fits (r : Recipe) : Prop :=
  r.leftMargin < 256 ∧ r.rightMargin < 256 ∧ r.shiftK < 256 ∧ r.hitThreshold < 65536 ∧ r.runBridge < 256 ∧
    r.narrowMax < 256 ∧ r.markCrack < 65536 ∧ r.warmLines < 256 ∧ r.obscurePct < 256 ∧ r.softLockMax < 65536 ∧
    r.missedLimit < 256 ∧ r.gate < 256 ∧ r.confirmLines < 256 ∧ r.gapMax < 256 ∧ r.minDefectMm < 65536 ∧
    r.rejectSingle < 65536 ∧ r.rejectTotal < 65536 ∧ r.conditionSingle < 65536 ∧ r.conditionCount < 256 ∧
    r.transReject < 256 ∧ r.coverageMin < 256

/-- The record that is stored for a received one (R146): each number brought into its range, hit_threshold first and
mark_crack_threshold against the result, a received 0 staying 0. -/
def Recipe.clamped (r : Recipe) : Recipe :=
  let hit := max 8 (min 2047 r.hitThreshold)
  { name := r.name
    polarity := r.polarity
    leftMargin := min 64 r.leftMargin
    rightMargin := min 64 r.rightMargin
    shiftK := max 1 (min 8 r.shiftK)
    hitThreshold := hit
    runBridge := min 3 r.runBridge
    narrowMax := max 1 (min 32 r.narrowMax)
    markCrack := if r.markCrack = 0 then 0 else max hit (min 4095 r.markCrack)
    warmLines := max 4 r.warmLines
    obscurePct := max 10 (min 100 r.obscurePct)
    softLockMax := max 8 (min 4096 r.softLockMax)
    missedLimit := max 1 r.missedLimit
    gate := max 1 (min 16 r.gate)
    confirmLines := max 2 (min 64 r.confirmLines)
    gapMax := min 32 r.gapMax
    minDefectMm := min 1000 r.minDefectMm
    rejectSingle := r.rejectSingle
    rejectTotal := r.rejectTotal
    conditionSingle := r.conditionSingle
    conditionCount := r.conditionCount
    transReject := r.transReject
    coverageMin := min 100 r.coverageMin }

/-- The 21 numeric fields of a recipe, in the order of the table of R146. -/
def Recipe.fields (r : Recipe) : List Nat :=
  [r.leftMargin, r.rightMargin, r.shiftK, r.hitThreshold, r.runBridge, r.narrowMax, r.markCrack, r.warmLines,
    r.obscurePct, r.softLockMax, r.missedLimit, r.gate, r.confirmLines, r.gapMax, r.minDefectMm, r.rejectSingle,
    r.rejectTotal, r.conditionSingle, r.conditionCount, r.transReject, r.coverageMin]

end Sys2Proof.Machine
end

