-- ==== Sys2Proof/Certificates/Slice0/Obligations.lean ====
section
/-! DEFINITION. The statements for the provers: the machine and its invariants, then the commands chapter by chapter.
A request's frame is written out as the bytes of its body (12, "Request bodies"), and `State.answered` is the reply.
-/

open Sys2Proof Sys2Proof.Machine

/-! ### The machine -/

/-- The command at the front of the queue runs on the state with the rest of the queue; on an empty queue the block
idles. The queue is the model's own (log 3). -/
def Obligations.StepRunsFrontCommand : Prop :=
  ∀ (s : State),
    (∀ (c : Instr) (rest : List Instr), s.pending = c :: rest → step s = exec c { s with pending := rest }) ∧
      (s.pending = [] → step s = .next s)

/-- Every command is answered with a next state and leaves the queue of waiting commands alone: the spec names no
fault (log 2). While the part is held in restart, and throughout CLOCK_HALT, only SUP takes events: every other
command leaves the whole state as it is (R176, R181, R183). -/
def Obligations.OnlySupActsWhileHeldOrHalted : Prop :=
  ∀ (c : Instr) (s : State),
    ∃ t, exec c s = .next t ∧ t.pending = s.pending ∧ (¬s.Runs → ofSupervisor c = false → t = s)

/-! ### Invariants that every command keeps, from every state that meets them -/

/-- Every command keeps every queue, log and buffer within its capacity (R61, R90, R126, R140, R155, R157, R165,
R168). -/
def Obligations.QueuesKeepTheirCapacity : Prop :=
  ∀ (c : Instr) (s t : State), s.WithinCapacity → exec c s = .next t → t.WithinCapacity

/-- An IDLE strand holds nothing of a cast, and a strand that is not IDLE has a billet open and a recipe in force
(R10, R61, R123, R124, R155, R158). -/
def Obligations.IdleStrandsHoldNothing : Prop :=
  ∀ (c : Instr) (s t : State), s.StrandsSettled → exec c s = .next t → t.StrandsSettled

/-- Channel states follow enabling and the strand's state; channels in DISABLED, IDLE and HARD_LOCK are unseeded; only
ACTIVE, or SOFT_LOCK left from it, holds tracks (R37, R75, R87, R95). Strands must be settled for it: that is the
statement before. -/
def Obligations.DormantChannelsAreEmpty : Prop :=
  ∀ (c : Instr) (s t : State), s.StrandsSettled → s.ChannelsSettled → exec c s = .next t → t.ChannelsSettled

/-- Every baseline value of every channel lies within 0..65,520 (R45), and unseeded columns hold 0 (R37). -/
def Obligations.BaselinesStayInRange : Prop :=
  ∀ (c : Instr) (s t : State), s.BaselinesInRange → exec c s = .next t → t.BaselinesInRange

/-- T stays at or below H, the forecasts in order, the recipe history strictly increasing up to the last triggered
line, and the grade schedule strictly increasing beyond it (R4, R61, R155, R157). -/
def Obligations.StrandCoordinatesStayOrdered : Prop :=
  ∀ (c : Instr) (s t : State), s.StrandsOrdered → exec c s = .next t → t.StrandsOrdered

/-- The grade in every queued report is the grade that the order of R138 yields from that report's own face summaries,
flags and merged limits. -/
def Obligations.QueuedReportsAreGradedInOrder : Prop :=
  ∀ (c : Instr) (s t : State), s.ReportsGraded → exec c s = .next t → t.ReportsGraded

/-- Every command keeps the sums of the counters, modulo 2^32: billets closed is the sum of the four per-grade
counters, and wide runs the sum of MARK and TRANSVERSE (R74, R139, R178). -/
def Obligations.CountersAddUp : Prop :=
  ∀ (c : Instr) (s t : State), exec c s = .next t →
    (s.ClosesCounted → t.ClosesCounted) ∧ (s.WideRunsCounted → t.WideRunsCounted)

/-- The tracks in the slots stay as associations make them: the centre between the columns spanned, 1 to 65,535 hit
lines, gap lines within 65,535, a TENTATIVE track with at most one miss in a row and not CONTINUED, a CONFIRMED one
with none, a COASTING one with at least one (R101, R104, R106, R107, R114). -/
def Obligations.TracksStaySound : Prop :=
  ∀ (c : Instr) (s t : State), s.TracksSound → exec c s = .next t → t.TracksSound

/-- The store's slots always agree with the operation in flight (R147 to R153), and a frozen slot's content and
revision do not change until a CLEAR_STORE completes: no command but CLEAR_STORE touches a frozen slot while no CLEAR
is in flight (R151). -/
def Obligations.StoreSlotsFitTheOperation : Prop :=
  ∀ (c : Instr) (s t : State), s.StoreSettled → exec c s = .next t →
    t.StoreSettled ∧
      (s.store.op ≠ .clear → c ≠ .clearStore → ∀ i, (s.slot i).frozen = true → t.slot i = s.slot i)

/-- H never decreases; it is set to 0 only by START_STRAND and by restart; and where T is at or below H it rises by at
most one count at a time (R4). -/
def Obligations.HighWaterNeverFalls : Prop :=
  ∀ (c : Instr) (s t : State) (n : StrandId), exec c s = .next t →
    ((s.strand n).high ≤ (t.strand n).high ∨ (t.strand n).high = 0 ∧ zeroesTravel c = true) ∧
      ((s.strand n).travel ≤ (s.strand n).high → (t.strand n).high ≤ (s.strand n).high + 1)

/-- The machine after reset meets every invariant above. -/
def Obligations.ResetMeetsTheInvariants : Prop :=
  State.reset.WithinCapacity ∧ State.reset.StrandsSettled ∧ State.reset.ChannelsSettled ∧
    State.reset.BaselinesInRange ∧ State.reset.StrandsOrdered ∧ State.reset.ReportsGraded ∧
    State.reset.ClosesCounted ∧ State.reset.WideRunsCounted ∧ State.reset.TracksSound ∧ State.reset.StoreSettled

/-! ### Requests and notices (09) -/

/-- Every taken request is answered with exactly one reply, of the request's kind plus 0x80 and its tag, with its
notices behind it; a body of the wrong length is answered BAD_LENGTH and a kind that is no request UNKNOWN_KIND, alone
and without effect (R166, R167). -/
def Obligations.RequestsAreAnsweredOnce : Prop :=
  (∀ (c : Instr) (kind : Byte) (length : Nat) (s : State) (f : HostFrame),
      requestForm c = some (kind, length) → s.Takes f → f.kind = kind →
        ∃ t body notices,
          exec c s = .next t ∧ t.hli.buffer = s.hli.buffer.drop 1 ∧ t.hli.inHand = none ∧
            t.hli.output = s.hli.output ++ ⟨f.kind + 0x80#8, f.tag, body⟩ :: notices ∧ body ≠ [] ∧
            (∀ g ∈ notices, g.tag = 0#8 ∧ 0xC0 ≤ g.kind.toNat) ∧
            (f.body.length ≠ length → t = s.answered f [0x01#8])) ∧
    ∀ (s : State) (f : HostFrame),
      s.Takes f → (f.kind = 0#8 ∨ 0x14 < f.kind.toNat) → exec .unknownKind s = .next (s.answered f [0x02#8])

/-- A notice of a disabled kind is discarded; an enabled one is queued when at least 2 entries are free; otherwise it
is dropped and NOTICES_LOST raised (R168, R169). -/
def Obligations.NoticesKeepTheReserve : Prop :=
  ∀ (s : State) (k : NoticeKind) (body : List Byte),
    (s.hli.mask.getLsbD (noticeBit k) = false → s.offer k body = s) ∧
      (s.hli.mask.getLsbD (noticeBit k) = true → s.hli.output.length ≤ 14 →
        s.offer k body =
          { s with
            hli := { s.hli with output := s.hli.output ++ [⟨BitVec.ofNat 8 (0xC0 + noticeBit k), 0#8, body⟩] } }) ∧
      (s.hli.mask.getLsbD (noticeBit k) = true → 14 < s.hli.output.length →
        s.offer k body = { s with linkStats := s.linkStats.set 3 (s.linkStats[3] + 1) })

/-- GET_INFO, GET_STATUS and GET_TRACKS are each answered with their values and change nothing else: the identity and
capacities of the part; the items of a scope, for a channel its configuration and the values of R55 and R94, for the
store the operation and the 16 slots, or BAD_ARGUMENT; the snapshot of a track table, or BAD_ARGUMENT (R55, R94, R121,
R170, R171). -/
def Obligations.ReadRequestsChangeNothing : Prop :=
  ∀ (s : State) (tag : Byte),
    (s.Takes ⟨0x01#8, tag, []⟩ →
      exec .getInfo s =
        .next (s.answered ⟨0x01#8, tag, []⟩
          ([0x00#8, 0x0D#8, 0xEC#8, 0x48#8, 0x5C#8, 0x01#8, 0x00#8, 4#8, 8#8, 4#8, 32#8, 16#8, 8#8, 4#8, 16#8] ++
            byte s.hli.lineRate.toNat ++ byte (causeCode s.sup.lastCause) ++ s.sup.counts.toList.flatMap byte))) ∧
      (∀ number : Byte, s.Takes ⟨0x02#8, tag, [0#8, number]⟩ →
        exec .getStatus s =
          .next (s.answered ⟨0x02#8, tag, [0#8, number]⟩
            ([0x00#8] ++ byte s.attn.toNat ++ byte s.rq.length ++ byte (s.hli.buffer.length - 1) ++
              byte (15 - s.hli.output.length) ++ [s.hli.mask]))) ∧
      (∀ n : StrandId, s.Takes ⟨0x02#8, tag, [1#8] ++ byte n.val⟩ →
        exec .getStatus s =
          .next (s.answered ⟨0x02#8, tag, [1#8] ++ byte n.val⟩ ([0x00#8] ++ strandBytes (s.strand n)))) ∧
      (∀ m : ChannelId, s.Takes ⟨0x02#8, tag, [2#8] ++ byte m.val⟩ →
        exec .getStatus s =
            .next (s.answered ⟨0x02#8, tag, [2#8] ++ byte m.val⟩ ([0x00#8] ++ s.channelBytes m)) ∧
          (s.channelBytes m).length = 23) ∧
      (∀ number : Byte, s.Takes ⟨0x02#8, tag, [3#8, number]⟩ →
        exec .getStatus s =
            .next (s.answered ⟨0x02#8, tag, [3#8, number]⟩ ([0x00#8] ++ storeBytes s.store)) ∧
          (storeBytes s.store).length = 195) ∧
      (∀ scope number : Byte,
        (scope = 1#8 ∧ 4 ≤ number.toNat ∨ scope = 2#8 ∧ 8 ≤ number.toNat ∨ 3 < scope.toNat) →
          s.Takes ⟨0x02#8, tag, [scope, number]⟩ →
            exec .getStatus s = .next (s.answered ⟨0x02#8, tag, [scope, number]⟩ [0x03#8])) ∧
      (∀ m : ChannelId, s.Takes ⟨0x11#8, tag, byte m.val⟩ →
        exec .getTracks s =
            .next (s.answered ⟨0x11#8, tag, byte m.val⟩ ([0x00#8] ++ s.snapshotBytes m)) ∧
          (s.snapshotBytes m).length = 393) ∧
      ∀ number : Byte, 8 ≤ number.toNat → s.Takes ⟨0x11#8, tag, [number]⟩ →
        exec .getTracks s = .next (s.answered ⟨0x11#8, tag, [number]⟩ [0x03#8])

/-- TAKE_BILLET removes the oldest report and returns it whole, in 27 + 16n + 33f + 24r bytes after the result code;
with RQ empty it is refused EMPTY (R142, R173; 12, "Billet report"). -/
def Obligations.TakeBilletReturnsTheOldestReport : Prop :=
  ∀ (s : State) (tag : Byte), s.Takes ⟨0x10#8, tag, []⟩ →
    (s.rq = [] → exec .takeBillet s = .next (s.answered ⟨0x10#8, tag, []⟩ [0x09#8])) ∧
      ∀ (r : BilletReport) (rest : List BilletReport), s.rq = r :: rest →
        exec .takeBillet s =
            .next { s.answered ⟨0x10#8, tag, []⟩ ([0x00#8] ++ reportBytes r) with rq := rest } ∧
          (reportBytes r).length = 27 + 16 * r.entries.length + 33 * r.faces.length + 24 * r.records.length

/-- GET_STATS returns a whole group, 4 bytes a counter, and with the clear flag zeroes that group and no other; an
unknown group, number or flag is refused BAD_ARGUMENT and no counter changes (R180). -/
def Obligations.GetStatsReadsAndClearsOneGroup : Prop :=
  ∀ (s : State) (tag : Byte) (clear : Bool),
    (∀ m : ChannelId, s.Takes ⟨0x12#8, tag, [0#8] ++ byte m.val ++ byte clear.toNat⟩ →
      exec .getStats s =
        .next ((s.answered ⟨0x12#8, tag, [0#8] ++ byte m.val ++ byte clear.toNat⟩
          ([0x00#8] ++ (s.channel m).stats.toList.flatMap fun k => le 4 k.toNat)).putChannel m
            { s.channel m with stats := if clear then Vector.replicate 22 0 else (s.channel m).stats })) ∧
      (∀ n : StrandId, s.Takes ⟨0x12#8, tag, [1#8] ++ byte n.val ++ byte clear.toNat⟩ →
        exec .getStats s =
          .next ((s.answered ⟨0x12#8, tag, [1#8] ++ byte n.val ++ byte clear.toNat⟩
            ([0x00#8] ++ (s.strand n).stats.toList.flatMap fun k => le 4 k.toNat)).putStrand n
              { s.strand n with stats := if clear then Vector.replicate 20 0 else (s.strand n).stats })) ∧
      (∀ number : Byte, s.Takes ⟨0x12#8, tag, [2#8, number] ++ byte clear.toNat⟩ →
        exec .getStats s =
          .next { s.answered ⟨0x12#8, tag, [2#8, number] ++ byte clear.toNat⟩
              ([0x00#8] ++ s.linkStats.toList.flatMap fun k => le 4 k.toNat) with
            linkStats := if clear then Vector.replicate 5 0 else s.linkStats }) ∧
      ∀ group number flag : Byte,
        (2 < group.toNat ∨ group = 0#8 ∧ 8 ≤ number.toNat ∨ group = 1#8 ∧ 4 ≤ number.toNat ∨ 1 < flag.toNat) →
          s.Takes ⟨0x12#8, tag, [group, number, flag]⟩ →
            exec .getStats s = .next (s.answered ⟨0x12#8, tag, [group, number, flag]⟩ [0x03#8])

/-- SET_NOTICES answers the mask as it stood and sets the new one (R169); RESTART answers OK and sets restart pending
(R174). Neither changes anything else. -/
def Obligations.LinkRequestsSetMaskAndPending : Prop :=
  ∀ (s : State) (tag : Byte),
    (∀ mask : Byte, s.Takes ⟨0x13#8, tag, [mask]⟩ →
      exec .setNotices s =
        .next ((s.answered ⟨0x13#8, tag, [mask]⟩ [0x00#8, s.hli.mask]).modHli fun h => { h with mask := mask })) ∧
      (s.Takes ⟨0x14#8, tag, []⟩ →
        exec .restart s =
          .next ((s.answered ⟨0x14#8, tag, []⟩ [0x00#8]).modHli fun h => { h with restartPending := true }))

/-- A start byte seen while HUNTING begins a frame; a complete frame enters the buffer and is counted, or finds it
full and is counted OVERRUN; a bad CRC, a character error or a gap abandons the frame and is counted. An over-length
frame is abandoned and counted, and the receiver hunts again from the byte after the start byte: a start byte among
the two bytes of the length begins a frame, with the length byte behind it. While HUNTING these events change nothing
(R164, R165; log 7 for the bytes a frame in reception already has). An entry of the output queue is freed when the
last character of its frame has left HTXD: the oldest frame goes, and nothing else changes, unless it is the reply to
a pending RESTART (R168, R174). It leaves byte by byte, each as a start bit, 8 data bits, least significant first, and
a stop bit, with the line at its idle level before, after and while no frame waits (R163; log 38, DEDUCED, for the
start bit low and the idle level high). -/
def Obligations.HostFramesAreBufferedOrCounted : Prop :=
  ∀ (s : State), s.Runs →
    let goesTo : HostRx → Fin 5 → State := fun rx i =>
      { s with hli := { s.hli with rx := rx }, linkStats := s.linkStats.set i (s.linkStats[i] + 1) }
    (s.hli.rx = .hunting →
      exec .startByte s = .next (s.modHli fun h => { h with rx := .receiving [] }) ∧
        exec .hostGapTimeout s = .next s ∧ ∀ why, exec (.hostFrameBad why) s = .next s) ∧
      (∀ got : List Byte, s.hli.rx = .receiving got →
        exec .startByte s = .next s ∧
          (∀ (f : HostFrame) (crc : BitVec 16), f.body.length ≤ 1020 →
            got <+: le 2 f.body.length ++ [f.kind, f.tag] ++ f.body →
              exec (.hostFrame f crc) s =
                .next
                  (if crc ≠ crc16 (le 2 f.body.length ++ [f.kind, f.tag] ++ f.body) then goesTo .hunting 1
                  else if s.hli.buffer.length < 4 then
                    { s with
                      hli := { s.hli with rx := .hunting, buffer := s.hli.buffer ++ [f] }
                      linkStats := s.linkStats.set 0 (s.linkStats[0] + 1) }
                  else goesTo .hunting 2)) ∧
          (∀ c : Instr, (c = .hostGapTimeout ∨ (∃ received : Character, received.getLsbD 0 = false ∧ received.getLsbD 9 = false ∧
              c = .hostFrameBad (.characterError received)) ∨ c = .hostFrameBad .badCrc) →
            exec c s = .next (goesTo .hunting 1)) ∧
          ∀ low high : Byte, 1020 < low.toNat + 256 * high.toNat → got <+: [low, high] →
            exec (.hostFrameBad (.overLength (high ++ low))) s =
              .next
                (goesTo (if low = 0xA5#8 then .receiving [high] else if high = 0xA5#8 then .receiving [] else .hunting)
                  1)) ∧
      (∀ (f : OutFrame) (rest : List OutFrame), s.hli.output = f :: rest →
        ((s.hli.restartPending = false ∨ f.kind ≠ 0x94#8) →
          exec .transmitComplete s = .next { s with hli := { s.hli with output := rest } }) ∧
          let covered := le 2 f.body.length ++ [f.kind, f.tag] ++ f.body
          let wire := 0xA5#8 :: (covered ++ le 2 (crc16 covered).toNat)
          s.htxd 0 = true ∧
            (∀ (i : Nat) (b : Byte), wire[i]? = some b →
              s.htxd (10 * i + 1) = false ∧ (∀ j < 8, s.htxd (10 * i + 2 + j) = b.getLsbD j) ∧
                s.htxd (10 * i + 10) = true) ∧
            ∀ begun, 10 * wire.length < begun → s.htxd begun = true) ∧
      (s.hli.output = [] → ∀ begun, s.htxd begun = true)

/-! ### Restart and supervision (11) -/

/-- The value that a restart of the given cause gives every block other than SUP (R21, R22, R37, R75, R95, R123, R142,
R147, R165, R168, R169, R172, R176): statistics and billet numbers zeroed or kept, the store resolved (R153). -/
def Obligations.RestartDefaultsEveryBlock : Prop :=
  ∀ (s : State) (c : Instr),
    (s.sup.inRestart = false ∧
        (c = .resetLow ∨ c = .supplyHold ∧ s.sup.holding = false ∧ s.sup.below = 2 ∨
          c = .supplySample true ∧ s.sup.holding = false ∧ s.sup.below = 2 ∨
          (c = .hostRestart ∨ c = .transmitComplete) ∧ s.sup.clock = .running ∧ s.hli.restartPending = true ∧
            ∃ tag rest, s.hli.output = ⟨0x94#8, tag, [0x00#8]⟩ :: rest) ∨
      c = .powerUp) →
      ∃ t, exec c s = .next t ∧ t.sup.inRestart = true ∧ t.rq = [] ∧ t.hli = Hli.initial s.hli.lineRate ∧
        t.pending = s.pending ∧
        (∀ n, t.strand n = Strand.initial (t.strand n).stats (t.strand n).billetCounter) ∧
        (∀ m, t.channel m = Channel.initial m (t.channel m).stats) ∧
        (if c = .powerUp ∨ c = .supplyHold ∧ s.sup.clock = .running ∨ c = .supplySample true ∧ s.sup.clock = .running ∨
            s.sup.started = true ∨ s.sup.supplySeen = true ∧ s.sup.clock = .running then
          (∀ n, (t.strand n).stats = Vector.replicate 20 0 ∧ (t.strand n).billetCounter = 0) ∧
            (∀ m, (t.channel m).stats = Vector.replicate 22 0) ∧ t.linkStats = Vector.replicate 5 0
        else
          (∀ n, (t.strand n).stats = (s.strand n).stats ∧ (t.strand n).billetCounter = (s.strand n).billetCounter) ∧
            (∀ m, (t.channel m).stats = (s.channel m).stats) ∧ t.linkStats = s.linkStats) ∧
        t.store.op = .none ∧
        (s.store.op = .none → t.store = s.store) ∧
        (∀ i r, s.store.op = .store i r →
          t.slot i = ⟨.empty, false, (s.slot i).revision⟩ ∧ ∀ j, j ≠ i → t.slot j = s.slot j) ∧
        (∀ i, s.store.op = .freeze i →
          t.slot i = { s.slot i with frozen := false } ∧ ∀ j, j ≠ i → t.slot j = s.slot j) ∧
        (s.store.op = .clear → ∀ j, t.slot j = ⟨.empty, false, 0⟩)

/-- Three consecutive samples below the threshold hold, three at or above it release, and fewer change the counts
alone (R182); RESET going high ends the pin hold alone (R181). -/
def Obligations.SupplySamplesAreCounted : Prop :=
  ∀ (s : State),
    (s.sup.holding = false →
      exec (.supplySample false) s = .next { s with sup := { s.sup with below := 0 } } ∧
        (s.sup.below < 2 →
          exec (.supplySample true) s = .next { s with sup := { s.sup with below := s.sup.below + 1 } }) ∧
        (s.sup.below = 2 → exec (.supplySample true) s = exec .supplyHold s)) ∧
      (s.sup.holding = true →
        exec (.supplySample true) s = .next { s with sup := { s.sup with above := 0 } } ∧
          (s.sup.above < 2 →
            exec (.supplySample false) s = .next { s with sup := { s.sup with above := s.sup.above + 1 } }) ∧
          (s.sup.above = 2 →
            exec (.supplySample false) s =
                .next { s with sup := { s.sup with holding := false, below := 0, above := 0 } } ∧
              exec .supplyRelease s =
                .next { s with sup := { s.sup with holding := false, below := 0, above := 0 } })) ∧
      exec .resetHigh s = .next { s with sup := { s.sup with pinHold := false } }

/-- What each beginning of a hold, or a hold that meets one already in force, records in SUP: RESET_LOW sets the pin
hold; a supply hold sets the hold flag and the supply hold seen flag and zeroes both counts; a hold that begins in
CLOCK_HALT is kept as one, and one already in force stays what it was; POWER_UP starts SUP holding (R181 to R184).
When no edge has arrived on REFCLK, the part halts with its state as it was: only the clock state changes, the TRIGn
are low and ATTN is high (R183). In CLOCK_HALT and while the part is held, HTXD is idle however far a frame had been
sent (R163, R181, R183; log 38, DEDUCED, for the idle level high). ATTN is high in CLOCK_HALT; while the part is held it
is low unless the hold began in the halt; and while the part runs it is high exactly when a report waits or a channel
is in HARD_LOCK (R84, R143, R181, R183). -/
def Obligations.HoldsAndHaltsAreRecorded : Prop :=
  ∀ (s : State),
    (∃ t, exec .resetLow s = .next t ∧ t.sup.pinHold = true ∧ t.sup.inRestart = true ∧ t.sup.resetSeen = true ∧
      t.sup.haltHold = (if s.sup.inRestart then s.sup.haltHold else decide (s.sup.clock = .halted)) ∧
      t.sup.holding = s.sup.holding ∧ t.sup.supplySeen = s.sup.supplySeen ∧ t.sup.lastCause = s.sup.lastCause ∧
      t.sup.counts = s.sup.counts ∧ (s.sup.inRestart = true → t = { s with sup := t.sup })) ∧
      (s.sup.holding = false → s.sup.below = 2 →
        ∃ t, exec .supplyHold s = .next t ∧ t.sup.holding = true ∧ t.sup.supplySeen = true ∧ t.sup.below = 0 ∧
          t.sup.above = 0 ∧ t.sup.inRestart = true ∧ t.sup.pinHold = s.sup.pinHold ∧
          t.sup.haltHold = (if s.sup.inRestart then s.sup.haltHold else decide (s.sup.clock = .halted)) ∧
          t.sup.counts = s.sup.counts ∧ (s.sup.inRestart = true → t = { s with sup := t.sup })) ∧
      (∃ t, exec .powerUp s = .next t ∧ t.sup.holding = true ∧ t.sup.below = 0 ∧ t.sup.above = 0 ∧
        t.sup.inRestart = true ∧ t.sup.started = true ∧ t.sup.haltHold = false ∧ t.sup.clock = .running) ∧
      (s.Runs →
        ∃ t, exec .clockHalt s = .next t ∧ t.attn = true ∧ (∀ n, (t.strand n).trig = false) ∧
          t = { s with sup := { s.sup with clock := .halted }, strands := t.strands } ∧
          (∀ n, t.strand n = { s.strand n with trig := false }) ∧ ∀ begun, t.htxd begun = true) ∧
      ((s.sup.inRestart = true ∨ s.sup.clock = .halted) → ∀ begun, s.htxd begun = true) ∧
      (s.sup.inRestart = true → s.attn = s.sup.haltHold) ∧
      (s.sup.inRestart = false → s.sup.clock = .halted → s.attn = true) ∧
      (s.Runs → (s.attn = true ↔ s.rq ≠ [] ∨ ∃ m cause, (s.channel m).lp.state = .hardLock cause))

/-- At the release the cause is recorded and its count raised, saturating at 255, the record cleared first by
POWER_UP; the straps, quadrature phases and reference levels are taken from the pins; the RESTARTED notice is the only
frame of the output queue; statistics are zeroed or kept by cause; while a hold remains nothing is released (R163,
R169, R181, R184, R185). -/
def Obligations.ReleaseRecordsTheCause : Prop :=
  ∀ (s : State) (pins : ReleasePins), s.sup.inRestart = true →
    ((s.sup.holding = true ∨ s.sup.pinHold = true) → exec (.restartRelease pins) s = .next s) ∧
      (s.sup.holding = false → s.sup.pinHold = false →
        ∃ t cause,
          exec (.restartRelease pins) s = .next t ∧
            cause =
              (if s.sup.started = true then RestartCause.powerUp
              else if s.sup.haltHold = true then .clockLoss
              else if s.sup.supplySeen = true then .supplyLow
              else if s.sup.resetSeen = true then .resetPin
              else .hostRestart) ∧
            t.Runs ∧ t.sup.lastCause = cause ∧ t.sup.supplySeen = false ∧
            (∀ k : Fin 5,
              t.sup.counts[k] =
                if k.val = causeCode cause then min 255 ((if cause = .powerUp then 0 else s.sup.counts[k]) + 1)
                else if cause = .powerUp then 0
                else s.sup.counts[k]) ∧
            t.hli =
              { s.hli with
                lineRate := pins.straps
                output := [⟨0xC8#8, 0#8, byte (causeCode cause) ++ t.sup.counts.toList.flatMap byte⟩] } ∧
            (∀ n, (t.strand n).phase = pins.phases[n] ∧ (t.strand n).cutLevel = pins.cut[n] ∧
              (t.strand n).oscLevel = pins.osc[n] ∧ (t.strand n).cfg = (s.strand n).cfg ∧
              (t.strand n).state = (s.strand n).state) ∧
            t.rq = s.rq ∧ t.store = s.store ∧
            (cause = .powerUp ∨ cause = .supplyLow →
              (∀ n, (t.strand n).stats = Vector.replicate 20 0 ∧ (t.strand n).billetCounter = 0) ∧
                (∀ m, (t.channel m).stats = Vector.replicate 22 0) ∧ t.linkStats = Vector.replicate 5 0) ∧
            (cause ≠ .powerUp → cause ≠ .supplyLow →
              (∀ n, (t.strand n).stats = (s.strand n).stats ∧
                (t.strand n).billetCounter = (s.strand n).billetCounter) ∧
                t.channels = s.channels ∧ t.linkStats = s.linkStats))

/-! ### Strand travel and triggers (01, 04, 08) -/

/-- A forward count at H raises T and H together and removes from the front of the forecast queue every entry passed
by its half window and two pitches; where no line falls due nothing else changes (R4, R8, R64). While the strand is
IDLE a count updates the quadrature phase alone; a change of both inputs updates it in every state and is no count
(R2); TRIGn goes low at the end of its pulse (R10). -/
def Obligations.ForwardCountsRaiseHighWater : Prop :=
  ∀ (s : State) (n : StrandId), s.Runs →
    (∀ input : EncInput,
      let x := s.strand n
      let p := pairAfter x.phase input
      (x.state = .idle → exec (.encoderCount n input) s = .next (s.putStrand n { x with phase := p })) ∧
        (x.state ≠ .idle → movesForward x.cfg.sign x.phase p = true → x.high ≤ x.travel → x.travel < maxCoord →
          (x.travel + 1 ≠ x.nextTrigger ∨ maxCoord < x.nextTrigger + x.cfg.countsPerLine) →
            exec (.encoderCount n input) s =
              .next (s.putStrand n
                { x with
                  phase := p
                  travel := x.travel + 1
                  high := x.travel + 1
                  forecasts :=
                    x.forecasts.dropWhile fun f =>
                      decide (f + x.cfg.markHalfWindow + 2 * x.cfg.countsPerLine < x.travel + 1) }))) ∧
      exec (.bothInputsChange n) s =
        .next (s.putStrand n
          { s.strand n with phase := ⟨!(s.strand n).phase.a, !(s.strand n).phase.b⟩ }) ∧
      exec (.trigPulseEnd n) s = .next (s.putStrand n { s.strand n with trig := false })

/-- A reverse count lowers T by one; at T = 0 it is ignored and counted REVERSE_AT_ZERO. It never changes H. While T
is below H a forward count raises T alone (R3). -/
def Obligations.ReverseCountsLowerTravelAlone : Prop :=
  ∀ (s : State) (n : StrandId) (input : EncInput), s.Runs → (s.strand n).state ≠ .idle →
    let x := s.strand n
    let p := pairAfter x.phase input
    (movesForward x.cfg.sign x.phase p = false → 0 < x.travel →
      exec (.encoderCount n input) s = .next (s.putStrand n { x with phase := p, travel := x.travel - 1 })) ∧
      (movesForward x.cfg.sign x.phase p = false → x.travel = 0 →
        exec (.encoderCount n input) s =
          .next (s.putStrand n { x with phase := p, stats := x.stats.set 1 (x.stats[1] + 1) })) ∧
      (movesForward x.cfg.sign x.phase p = true → x.travel < x.high → x.high ≤ maxCoord →
        exec (.encoderCount n input) s = .next (s.putStrand n { x with phase := p, travel := x.travel + 1 }))

/-- With no schedule entry due, the trigger of line k starts the await for it in every enabled channel of the strand,
an awaited earlier line being settled MISSED first; a QUIET channel changes in nothing else; schedule and history
stand (R8, R9, R30). -/
def Obligations.LineTriggerOpensTheAwaits : Prop :=
  ∀ (s : State) (n : StrandId) (input : EncInput), s.Triggers n input →
    let x := s.strand n
    (∀ e, x.schedule.head? = some e → x.nextTrigger < e.coord) →
      ∃ t, exec (.encoderCount n input) s = .next t ∧ x.TriggeredFrom (t.strand n) ∧
        (t.strand n).schedule = x.schedule ∧ (t.strand n).history = x.history ∧ OthersKept n s t ∧
        ∀ m, (s.channel m).cfg.enabled = true → (s.channel m).cfg.strand = n →
          let c := s.channel m
          let k := x.nextTrigger / x.cfg.countsPerLine
          let opened : Option Byte → Receiver := fun last =>
            { c.rx with
              await := .awaiting k x.nextTrigger (BitVec.ofNat 8 k + c.rx.tagOffset)
              lastExpected := last
              timer := some x.cfg.lineWaitUs }
          (c.rx.await = .quiet → t.channel m = { c with rx := opened c.rx.lastExpected }) ∧
            ∀ k' line expected, c.rx.await = .awaiting k' line expected →
              (t.channel m).rx = opened (some expected) ∧
                t.channelCount m .missed = s.channelCount m .missed + 1

/-- The schedule entries due at a trigger are removed and handled in order: from a VALID slot an entry is applied, as a
new history entry at the line's coordinate, after a merge of the two oldest entries where 5 are held, the copy of a
later entry replacing that of an earlier one; from a slot that is EMPTY or WRITING it is skipped and the history stands.
Each is notified, GRADE_APPLIED or GRADE_CHANGE_FAILED, before any other notice of the trigger (log 10, DEDUCED, for
that order). The await then opens in every enabled channel of the strand, an awaited earlier line being settled MISSED
first (R30, R156, R159). -/
def Obligations.DueGradeChangesEnterTheHistory : Prop :=
  ∀ (s : State) (n : StrandId) (input : EncInput) (due rest : List ScheduleEntry), s.Triggers n input →
    let x := s.strand n
    x.schedule = due ++ rest → (∀ e ∈ due, e.coord ≤ x.nextTrigger) →
      (∀ e', rest.head? = some e' → x.nextTrigger < e'.coord) →
      (∀ h, x.history.getLast? = some h → h.coord < x.nextTrigger) →
        let applied := due.filter fun e => (s.slot e.slot).content.isValid
        ∃ t, exec (.encoderCount n input) s = .next t ∧ x.TriggeredFrom (t.strand n) ∧
          (t.strand n).schedule = rest ∧ OthersKept n s t ∧ Reopened n s t ∧
          LinkGrows (s.offers (due.map (s.gradeNotice n x.nextTrigger))) t ∧
          (applied = [] → (t.strand n).history = x.history) ∧
          ∀ e r, applied.getLast? = some e → (s.slot e.slot).content = .valid r →
            let added : HistoryEntry := ⟨x.nextTrigger, e.slot, (s.slot e.slot).revision, false, r⟩
            (x.history.length < 5 → (t.strand n).history = x.history ++ [added]) ∧
              ∀ a b newer, x.history = a :: b :: newer → x.history.length = 5 →
                (t.strand n).history =
                  ⟨a.coord, b.slot, b.revision, true,
                      { b.recipe with
                        rejectSingle := smallestSet a.recipe.rejectSingle b.recipe.rejectSingle
                        rejectTotal := smallestSet a.recipe.rejectTotal b.recipe.rejectTotal
                        conditionSingle := smallestSet a.recipe.conditionSingle b.recipe.conditionSingle
                        conditionCount := smallestSet a.recipe.conditionCount b.recipe.conditionCount
                        transReject := smallestSet a.recipe.transReject b.recipe.transReject
                        coverageMin := max a.recipe.coverageMin b.recipe.coverageMin }⟩ ::
                    newer ++ [added]

/-- A grade change that alters polarity or a margin restarts every enabled channel of the strand that is WARMUP,
ACTIVE or SOFT_LOCK: unseeded, in WARMUP, its slots FREE, link run and coverage log kept, or in HARD_LOCK with cause
WINDOW under an empty window, the entry counted; the leaving of SOFT_LOCK with cause RECIPE, or the entry to HARD_LOCK,
is notified with the line's coordinate; one that alters none restarts no channel (R51, R53, R84, R87, R160). Said of
the channels that are QUIET at the trigger. -/
def Obligations.GradeChangesRestartChannels : Prop :=
  ∀ (s : State) (n : StrandId) (m : ChannelId) (input : EncInput) (e : ScheduleEntry) (r : Recipe) (h : HistoryEntry),
    s.Triggers n input →
    let x := s.strand n
    let c := s.channel m
    x.schedule = [e] → e.coord ≤ x.nextTrigger → (s.slot e.slot).content = .valid r →
      x.history.getLast? = some h → h.coord < x.nextTrigger →
      c.cfg.enabled = true → c.cfg.strand = n → c.rx.await = .quiet →
      (c.lp.state = .warmup ∨ c.lp.state = .active ∨ ∃ left, c.lp.state = .softLock left) →
        let offered : Byte → Byte → Byte → State → Prop := fun left hard cause t =>
          OfferedAmong .channelLock (lockBody m n left hard cause x.nextTrigger) s t
        ∃ t, exec (.encoderCount n input) s = .next t ∧
          (if h.recipe.polarity = r.polarity ∧ h.recipe.leftMargin = r.leftMargin ∧
              h.recipe.rightMargin = r.rightMargin then
            (t.channel m).lp = c.lp ∧ (t.channel m).tt = c.tt
          else
            (t.channel m).tt.Empty ∧ (t.channel m).lp.Unseeded ∧ (t.channel m).lp.log = c.lp.log ∧
              (t.channel m).lp.warmCount = 0 ∧
              if r.leftMargin + r.rightMargin + 8 ≤ 8 * c.cfg.groups then
                (t.channel m).lp.state = .warmup ∧ (t.channel m).lp.linkRun = c.lp.linkRun ∧
                  ((∃ left, c.lp.state = .softLock left) → offered 0x01#8 0x00#8 0x06#8 t)
              else
                (t.channel m).lp.state = .hardLock .window ∧ (t.channel m).lp.linkRun = 0 ∧
                  t.channelCount m .hardEntries = s.channelCount m .hardEntries + 1 ∧ offered 0x00#8 0x01#8 0x03#8 t)

/-- A forward count that finds T at 4,294,967,295 while the strand casts is ignored, T and H stay, and the strand
stops with reason TRAVEL_END, its billet reported and notified, the leaving of each lock notified; further forward
counts find it IDLE (R5, R15, R87, R140, R141). Of the stop, two points are the model's reading and no rule's words:
BILLET_READY is the first and STRAND_STATE the last of its notices (log 11, DEDUCED), and a QUIET receiver keeps its
last expected tag (log 24, DEDUCED). -/
def Obligations.TravelEndStopsTheStrand : Prop :=
  ∀ (s : State) (n : StrandId) (input : EncInput), s.Runs → (s.strand n).state ≠ .idle →
    let p := pairAfter (s.strand n).phase input
    movesForward (s.strand n).cfg.sign (s.strand n).phase p = true → (s.strand n).travel = maxCoord →
      (s.strand n).high = maxCoord →
        ∃ t, exec (.encoderCount n input) s = .next t ∧ (t.strand n).travel = maxCoord ∧
          (t.strand n).high = maxCoord ∧ StoppedWith n 3 (s.putStrand n { s.strand n with phase := p }) t ∧
          ∀ again, ∃ u, exec (.encoderCount n again) t = .next u ∧ (u.strand n).travel = maxCoord ∧
            (u.strand n).high = maxCoord

/-- A mould stroke is ignored while the strand is IDLE; it enters the forecast H + mould_to_sensor_counts and is
counted; with 24 entries it is dropped and counted, and FORECAST_LOST is set on the open billet (R62, R63). -/
def Obligations.MouldStrokesEnterForecasts : Prop :=
  ∀ (s : State) (n : StrandId), s.Runs →
    let x := s.strand n
    (x.state = .idle → exec (.oscEdge n) s = .next (s.putStrand n { x with oscLevel := true })) ∧
      (x.state ≠ .idle → x.forecasts.length < 24 →
        exec (.oscEdge n) s =
          .next (s.putStrand n
            { x with
              oscLevel := true
              forecasts := x.forecasts ++ [x.high + x.cfg.mouldToSensor]
              stats := x.stats.set 2 (x.stats[2] + 1) })) ∧
      (x.state ≠ .idle → 24 ≤ x.forecasts.length →
        exec (.oscEdge n) s =
          .next (s.putStrand n
            { x with
              oscLevel := true
              stats := x.stats.set 3 (x.stats[3] + 1)
              billet := x.billet.map fun b => { b with forecastLost := true } }))

/-! ### Cuts (01, 06, 07) -/

/-- A cut is ignored, and counted, in the first case that applies: strand IDLE, H below the torch offset, K not above
the last cut plus P; an ignored cut changes no state apart from its counter. A CUT_STRAND is answered OK with the
outcome and K 0, and BAD_ARGUMENT outside 0..3 (R17, R18). -/
def Obligations.IgnoredCutsOnlyCount : Prop :=
  (∀ (c : Instr) (s s' : State) (n : StrandId) (code : Nat) (place : Fin 20),
    let x := s.strand n
    ((x.state = .idle ∧ code = 1 ∧ place = 7) ∨
        (x.state ≠ .idle ∧ x.high < x.cfg.torchOffset ∧ code = 2 ∧ place = 5) ∨
        (x.state ≠ .idle ∧ x.cfg.torchOffset ≤ x.high ∧
          x.high - x.cfg.torchOffset ≤ x.lastCut + x.cfg.countsPerLine ∧ code = 3 ∧ place = 6)) →
      CutOn c n code 0 s s' →
        exec c s =
          .next (s'.putStrand n
            { s'.strand n with stats := x.stats.set place (x.stats[place] + 1) })) ∧
    ∀ (s : State) (tag b : Byte), 4 ≤ b.toNat → s.Takes ⟨0x08#8, tag, [b]⟩ →
      exec .cutStrand s = .next (s.answered ⟨0x08#8, tag, [b]⟩ [0x03#8])

/-- An accepted cut in CASTING closes the billet [head, K), its report holding what the closing set, the coverage
below K and the recipe entries give it; it raises cuts accepted and the close counters, sets the last cut to K, and
opens the next billet at head K, with HARD_LOCKED set for the face of each channel in HARD_LOCK; T, H and the trigger
coordinates stay; of the coverage only the lines below K, and of the history only the entries wholly below K, are gone.
Its notices are BILLET_READY, after REPORT_LOST where the report queue was full, and no other (R19, R124, R127 to R131,
R134 to R141, R155). -/
def Obligations.AcceptedCutsCloseAndOpenBillets : Prop :=
  ∀ (c : Instr) (s s' : State) (n : StrandId) (b : OpenBillet),
    (s.strand n).state = .casting → s.AcceptsCut n → (s.strand n).billet = some b →
      1 ≤ (s.strand n).cfg.countsPerLine → CutOn c n 0 (s.cutAt n) s s' →
        ∃ t r, exec c s = .next t ∧ (s.strand n).CutAt (t.strand n) (s.cutAt n) ∧
          t.strandCount n .cutsAccepted = s.strandCount n .cutsAccepted + 1 ∧
          t.strandCount n .defectDrop = s.strandCount n .defectDrop ∧
          t.strandCount n .tailDiscarded = s.strandCount n .tailDiscarded ∧
          (∀ k, ofClose k = false → k ≠ .cutsAccepted → t.strandCount n k = s.strandCount n k) ∧
          ReportOf n b b.defectsDropped (s.cutAt n) false (s.closingAt n (s.cutAt n)) s t r ∧
          (∀ m, (s.channel m).cfg.enabled = true → (s.channel m).cfg.strand = n →
            (s.channel m).CutAt (t.channel m) m (s.strand n).cfg (s.cutAt n)) ∧
          (∀ opened, (t.strand n).billet = some opened → FacesOpened n s opened.faces) ∧
          OthersKept n s' t ∧ t.hli = (s'.offers (s.reportNotices r)).hli

/-- The accepted cut that ends FINISHING closes the billet [head, K) without STOPPED, discards and counts the pending
records that the partition leaves, opens no billet, and returns the strand to IDLE with a STRAND_STATE notice of
reason FINISHED; BILLET_READY, after REPORT_LOST where the report queue was full, and the leaving of each lock are
notified (R19, R87, R118, R127 to R141). Three points are the model's and no rule's words: BILLET_READY comes first
and STRAND_STATE last (log 11, DEDUCED), a QUIET receiver keeps its last expected tag (log 24, DEDUCED), and the
leaving of a lock carries the last triggered line coordinate (log 36, DESIGN CHOICE). -/
def Obligations.FinishingCutsEndTheCast : Prop :=
  ∀ (c : Instr) (s s' : State) (n : StrandId) (b : OpenBillet),
    (s.strand n).state = .finishing → s.AcceptsCut n → (s.strand n).billet = some b →
      CutOn c n 0 (s.cutAt n) s s' →
        ∃ t r, exec c s = .next t ∧ (s.strand n).Ended (t.strand n) (s.cutAt n) ∧
          t.strandCount n .cutsAccepted = s.strandCount n .cutsAccepted + 1 ∧
          t.strandCount n .defectDrop = s.strandCount n .defectDrop ∧
          t.strandCount n .tailDiscarded =
            s.strandCount n .tailDiscarded +
              BitVec.ofNat 32 ((s.strand n).defects.filter fun r => decide (s.cutAt n < r.stop)).length ∧
          (∀ k, ofClose k = false → k ≠ .cutsAccepted → t.strandCount n k = s.strandCount n k) ∧
          ReportOf n b b.defectsDropped (s.cutAt n) false (s.closingAt n (s.cutAt n)) s t r ∧
          (∀ m, (s.channel m).cfg.enabled = true → (s.channel m).cfg.strand = n →
            (s.channel m).Ended (t.channel m) ((s.channel m).split m (s.strand n).cfg (s.cutAt n))) ∧
          OthersKept n s' t ∧ LinkGrows (s'.offers (s.reportNotices r)) t ∧ LocksLeft n s' t ∧
          OfferedLast .strandState (byte n.val ++ [0x00#8, 0x04#8] ++ le 4 (s.strand n).high) s' t

/-- The partition at K: a record that ends at or below K goes to the billet being closed; one that starts at or above
K stays at its place; one that straddles K is split, the lower piece to the billet with CONTINUES, the upper piece at
its place with CONTINUED, each with its own length and every other field copied. Every record left starts at or above
K (R129). -/
def Obligations.CutsPartitionThePendingQueue : Prop :=
  ∀ (s : State) (n : StrandId) (b : OpenBillet), s.Runs → (s.strand n).state = .casting → s.AcceptsCut n →
    (s.strand n).billet = some b →
      let x := s.strand n
      let k := s.cutAt n
      let mm := fun d : Nat => min 65535 ((d * x.cfg.umPerCount + 500) / 1000)
      ∃ t r, exec (.cutEdge n) s = .next t ∧ t.rq.getLast? = some r ∧
        (t.strand n).defects =
            (x.defects.flatMap fun d =>
              if d.stop ≤ k then []
              else if k ≤ d.start then [d]
              else [{ d with start := k, lengthMm := mm (d.stop - k), continued := true }]) ∧
          (∀ d ∈ (t.strand n).defects, k ≤ d.start) ∧
          (r.flags.listCapped = false → ∀ d ∈ x.defects,
            (d.stop ≤ k → d ∈ r.records) ∧
              (d.start < k → k < d.stop →
                { d with stop := k, lengthMm := mm (k - d.start), continues := true } ∈ r.records))

/-- A CONFIRMED or COASTING track with start below K is split where last + P lies above K: the piece below the cut
goes to the billet being closed, ending at K with CONTINUES, and the track stays in its slot from K with CONTINUED.
Where last + P lies at or below K the slot becomes FREE. A track with start at or above K is left as it is (R113 to
R116). -/
def Obligations.CutsSplitTheTracks : Prop :=
  ∀ (s : State) (n : StrandId) (m : ChannelId) (i : SlotId) (tr : Track) (b : OpenBillet), s.Runs →
    (s.strand n).state = .casting → s.AcceptsCut n → (s.strand n).billet = some b →
      (s.channel m).cfg.enabled = true → (s.channel m).cfg.strand = n → (s.channel m).tt.slots[i] = some tr →
      tr.state ≠ .tentative →
        let x := s.strand n
        let k := s.cutAt n
        ∃ t r, exec (.cutEdge n) s = .next t ∧ t.rq.getLast? = some r ∧
          (k ≤ tr.start → (t.channel m).tt.slots[i] = some tr) ∧
          (tr.start < k → tr.last + x.cfg.countsPerLine ≤ k → (t.channel m).tt.slots[i] = none) ∧
          (tr.start < k → k < tr.last + x.cfg.countsPerLine →
            (t.channel m).tt.slots[i] = some { tr with start := k, continued := true } ∧
              (r.flags.listCapped = false →
                ⟨.longitudinal (tr.peakSum / tr.hitLines) tr.hitLines tr.gapLines, m, (s.channel m).cfg.face, tr.start,
                    k, min 65535 (((k - tr.start) * x.cfg.umPerCount + 500) / 1000), tr.minCol, tr.maxCol,
                    tr.peakMax, true, tr.continued, false, false⟩ ∈ r.records))

/-! ### Requests on strands and channels (01, 05, 08, 09) -/

/-- SET_STRAND in IDLE replaces the whole configuration, each numeric field brought into its range and flagged where
it was; it is refused BAD_ARGUMENT for a bad strand number or sign and NOT_IDLE while the strand casts, the
configuration unchanged (R1). -/
def Obligations.SetStrandReplacesTheConfiguration : Prop :=
  ∀ (s : State) (tag : Byte) (strand um pitch mould half torch wait sign : Nat),
    strand < 256 → um < 65536 → pitch < 65536 → mould < 4294967296 → half < 65536 → torch < 4294967296 →
      wait < 65536 → sign < 256 →
      let f : HostFrame :=
        ⟨0x03#8, tag,
          byte strand ++ le 2 um ++ le 2 pitch ++ le 4 mould ++ le 2 half ++ le 4 torch ++ le 2 wait ++ byte sign⟩
      s.Takes f →
        ((4 ≤ strand ∨ 2 ≤ sign) → exec .setStrand s = .next (s.answered f [0x03#8])) ∧
          ∀ (n : StrandId), n.val = strand → sign < 2 →
            ((s.strand n).state ≠ .idle → exec .setStrand s = .next (s.answered f [0x05#8])) ∧
              ((s.strand n).state = .idle →
                let cfg : StrandConfig :=
                  { umPerCount := max 10 (min 2000 um)
                    countsPerLine := max 1 (min 1024 pitch)
                    mouldToSensor := min 16777215 mould
                    markHalfWindow := min 4095 half
                    torchOffset := min 16777215 torch
                    lineWaitUs := max 50 wait
                    sign := if sign = 0 then .plus else .minus }
                let mask :=
                  differs um cfg.umPerCount + 2 * differs pitch cfg.countsPerLine + 4 * differs mould cfg.mouldToSensor +
                    8 * differs half cfg.markHalfWindow + 16 * differs torch cfg.torchOffset +
                    32 * differs wait cfg.lineWaitUs
                exec .setStrand s =
                  .next ((s.answered f ([0x00#8] ++ byte mask)).putStrand n { s.strand n with cfg := cfg }))

/-- SET_CHANNEL, its checks in order: bad numbers and codes BAD_ARGUMENT, a strand not IDLE NOT_IDLE, another enabled
channel on the same strand and face BAD_ARGUMENT; taken, it replaces the configuration, column groups clamped and
flagged, and everything of the channel but its counters starts afresh, IDLE when enabled and DISABLED otherwise (R22,
R52, R75, R95, R172). -/
def Obligations.SetChannelResetsTheChannel : Prop :=
  ∀ (s : State) (tag channel enabled strand face headId groups : Byte),
    let f : HostFrame := ⟨0x04#8, tag, [channel, enabled, strand, face, headId, groups]⟩
    s.Takes f →
      ((8 ≤ channel.toNat ∨ 2 ≤ enabled.toNat ∨ 4 ≤ strand.toNat ∨ 4 ≤ face.toNat) →
        exec .setChannel s = .next (s.answered f [0x03#8])) ∧
        ∀ (m : ChannelId) (on : Bool) (n : StrandId) (side : Face), m.val = channel.toNat → on.toNat = enabled.toNat →
          n.val = strand.toNat → faceCode side = face.toNat →
          let taken := ∃ j, j ≠ m ∧ (s.channel j).cfg.enabled = true ∧ (s.channel j).cfg.strand = n ∧
            (s.channel j).cfg.face = side
          let idle := (s.strand (s.channel m).cfg.strand).state = .idle ∧ (s.strand n).state = .idle
          let count := max 4 (min 32 groups.toNat)
          (¬idle → exec .setChannel s = .next (s.answered f [0x05#8])) ∧
            (idle → on = true → taken → exec .setChannel s = .next (s.answered f [0x03#8])) ∧
            (idle → ¬(on = true ∧ taken) →
              exec .setChannel s =
                .next ((s.answered f ([0x00#8] ++ byte (differs groups.toNat count))).putChannel m
                  { cfg := ⟨on, n, side, headId, count⟩
                    rx := ⟨.hunting, .quiet, none, 0#8, none⟩
                    lp := LineProcessor.initial (if on then .idle else .disabled)
                    tt := ⟨Vector.replicate 16 none, none⟩
                    stats := (s.channel m).stats }))

/-- START_STRAND is refused by the first check of R11 that fails: bad numbers BAD_ARGUMENT, a casting strand BUSY, a
WRITING slot BUSY, an EMPTY slot EMPTY, and a torch offset below 128 lines, no enabled channel or an empty window
BAD_CONFIG. A refused request has no effect. -/
def Obligations.StartStrandChecksInOrder : Prop :=
  ∀ (s : State) (tag strand slot : Byte),
    let f : HostFrame := ⟨0x05#8, tag, [strand, slot]⟩
    s.Takes f →
      ((4 ≤ strand.toNat ∨ 16 ≤ slot.toNat) → exec .startStrand s = .next (s.answered f [0x03#8])) ∧
        ∀ (n : StrandId) (i : SlotId), n.val = strand.toNat → i.val = slot.toNat →
          ((s.strand n).state ≠ .idle ∨ (s.slot i).content = .writing →
            exec .startStrand s = .next (s.answered f [0x07#8])) ∧
            ((s.strand n).state = .idle → (s.slot i).content = .empty →
              exec .startStrand s = .next (s.answered f [0x09#8])) ∧
            ∀ r, (s.strand n).state = .idle → (s.slot i).content = .valid r →
              ((s.strand n).cfg.torchOffset < 128 * (s.strand n).cfg.countsPerLine ∨
                  (∀ m, ¬((s.channel m).cfg.enabled = true ∧ (s.channel m).cfg.strand = n)) ∨
                  ∃ m, (s.channel m).cfg.enabled = true ∧ (s.channel m).cfg.strand = n ∧
                    8 * (s.channel m).cfg.groups < r.leftMargin + r.rightMargin + 8) →
                exec .startStrand s = .next (s.answered f [0x04#8])

/-- A START_STRAND that passes every check is taken: the strand CASTING from coordinate 0 with its queues empty, the
slot's copy its only history entry, and a billet open at head 0 with FIRST; every channel that names the strand starts
afresh, in WARMUP when enabled; the STRAND_STATE notice is offered behind the reply; nothing else changes (R11, R12,
R16, R22, R75, R95, R124). -/
def Obligations.StartStrandBeginsACast : Prop :=
  ∀ (s : State) (tag : Byte) (n : StrandId) (i : SlotId) (r : Recipe),
    let f : HostFrame := ⟨0x05#8, tag, byte n.val ++ byte i.val⟩
    let x := s.strand n
    let viewed : Face → Option FaceFlags := fun side =>
      if ∃ m, (s.channel m).cfg.enabled = true ∧ (s.channel m).cfg.strand = n ∧ (s.channel m).cfg.face = side then
        some ⟨false, false, false⟩
      else none
    s.Takes f → x.state = .idle → (s.slot i).content = .valid r → 128 * x.cfg.countsPerLine ≤ x.cfg.torchOffset →
      (∃ m, (s.channel m).cfg.enabled = true ∧ (s.channel m).cfg.strand = n) →
      (∀ m, (s.channel m).cfg.enabled = true → (s.channel m).cfg.strand = n →
        r.leftMargin + r.rightMargin + 8 ≤ 8 * (s.channel m).cfg.groups) →
        exec .startStrand s =
          .next (State.offer
            { s.answered f [0x00#8] with
              strands :=
                s.strands.set n
                  { x with
                    state := .casting
                    travel := 0
                    high := 0
                    nextTrigger := x.cfg.countsPerLine
                    lastTrigger := 0
                    lastCut := 0
                    forecasts := []
                    schedule := []
                    history := [⟨0, i, (s.slot i).revision, false, r⟩]
                    defects := []
                    billet :=
                      some ⟨x.billetCounter, 0, true, false, false,
                        #v[viewed .faceA, viewed .faceB, viewed .faceC, viewed .faceD]⟩
                    billetCounter := x.billetCounter + 1 }
              channels :=
                Vector.ofFn fun m : ChannelId =>
                  if (s.channel m).cfg.strand = n then
                    { s.channel m with
                      rx := { (s.channel m).rx with await := .quiet, timer := none, lastExpected := none }
                      lp :=
                        LineProcessor.initial
                          (if (s.channel m).cfg.enabled = true then .warmup else (s.channel m).lp.state)
                      tt := ⟨Vector.replicate 16 none, none⟩ }
                  else s.channel m }
            .strandState (byte n.val ++ [0x01#8, 0x00#8] ++ le 4 0))

/-- FINISH_STRAND: a bad number BAD_ARGUMENT, IDLE NOT_CASTING; in CASTING taken, FINISHING with a STRAND_STATE
notice; in FINISHING taken with no effect and no notice (R13). STOP_STRAND: a bad number BAD_ARGUMENT; in IDLE taken
with no effect; in CASTING or FINISHING taken, and the strand stops with reason STOP, its billet closed at H with
STOPPED and notified, its channels IDLE, the leaving of each lock notified (R14, R87, R132, R140, R141). Of the stop,
two points are the model's reading and no rule's words: BILLET_READY is the first and STRAND_STATE the last of its
notices (log 11, DEDUCED), and a QUIET receiver keeps its last expected tag (log 24, DEDUCED). -/
def Obligations.FinishAndStopEndTheCast : Prop :=
  ∀ (s : State) (tag : Byte),
    (∀ b : Byte, 4 ≤ b.toNat →
      (s.Takes ⟨0x06#8, tag, [b]⟩ →
        exec .finishStrand s = .next (s.answered ⟨0x06#8, tag, [b]⟩ [0x03#8])) ∧
        (s.Takes ⟨0x07#8, tag, [b]⟩ →
          exec .stopStrand s = .next (s.answered ⟨0x07#8, tag, [b]⟩ [0x03#8]))) ∧
      ∀ n : StrandId,
        let finish : HostFrame := ⟨0x06#8, tag, byte n.val⟩
        let stop : HostFrame := ⟨0x07#8, tag, byte n.val⟩
        (s.Takes finish →
          ((s.strand n).state = .idle → exec .finishStrand s = .next (s.answered finish [0x06#8])) ∧
            ((s.strand n).state = .finishing → exec .finishStrand s = .next (s.answered finish [0x00#8])) ∧
            ((s.strand n).state = .casting →
              exec .finishStrand s =
                .next (((s.answered finish [0x00#8]).putStrand n { s.strand n with state := .finishing }).offer
                  .strandState (byte n.val ++ [0x02#8, 0x01#8] ++ le 4 (s.strand n).high)))) ∧
          (s.Takes stop →
            ((s.strand n).state = .idle → exec .stopStrand s = .next (s.answered stop [0x00#8])) ∧
              ((s.strand n).state ≠ .idle →
                ∃ t, exec .stopStrand s = .next t ∧ StoppedWith n 2 (s.answered stop [0x00#8]) t))

/-- SCHEDULE_GRADE, its checks in the order of R157, adds an entry after the last and answers the number of entries;
CLEAR_SCHEDULE empties the schedule in every strand state and answers the number removed (R157, R158). -/
def Obligations.ScheduleRequestsKeepTheOrder : Prop :=
  ∀ (s : State) (tag strand slot : Byte) (g : Nat) (f clear : HostFrame), g < 4294967296 →
    f = ⟨0x09#8, tag, [strand] ++ le 4 g ++ [slot]⟩ → clear = ⟨0x0A#8, tag, [strand]⟩ →
      (s.Takes f →
        ((4 ≤ strand.toNat ∨ 16 ≤ slot.toNat) → exec .scheduleGrade s = .next (s.answered f [0x03#8])) ∧
          ∀ (n : StrandId) (i : SlotId), n.val = strand.toNat → i.val = slot.toNat →
            let x := s.strand n
            let late := g ≤ x.lastTrigger ∨ ∃ e, x.schedule.getLast? = some e ∧ g ≤ e.coord
            (x.state = .idle → exec .scheduleGrade s = .next (s.answered f [0x06#8])) ∧
              (x.state ≠ .idle → late → exec .scheduleGrade s = .next (s.answered f [0x0A#8])) ∧
              (x.state ≠ .idle → ¬late → 4 ≤ x.schedule.length →
                exec .scheduleGrade s = .next (s.answered f [0x0B#8])) ∧
              (x.state ≠ .idle → ¬late → x.schedule.length < 4 →
                exec .scheduleGrade s =
                  .next ((s.answered f ([0x00#8] ++ byte (x.schedule.length + 1))).putStrand n
                    { x with schedule := x.schedule ++ [⟨g, i⟩] }))) ∧
        (s.Takes clear →
          (4 ≤ strand.toNat → exec .clearSchedule s = .next (s.answered clear [0x03#8])) ∧
            ∀ n : StrandId, n.val = strand.toNat →
              exec .clearSchedule s =
                .next ((s.answered clear ([0x00#8] ++ byte (s.strand n).schedule.length)).putStrand n
                  { s.strand n with schedule := [] }))

/-- RELEASE_CHANNEL: a bad number BAD_ARGUMENT, no HARD_LOCK NOT_LOCKED; taken, the channel enters WARMUP unseeded
with its counts 0 and its log kept, and leaving is notified with cause RELEASED; or, where the newest recipe empties
its window, HARD_LOCK again with cause WINDOW, counted, flagged and notified. The reply carries the state after (R83,
R84, R86). -/
def Obligations.ReleaseChannelLeavesHardLock : Prop :=
  ∀ (s : State) (tag : Byte),
    (∀ b : Byte, 8 ≤ b.toNat → s.Takes ⟨0x0B#8, tag, [b]⟩ →
      exec .releaseChannel s = .next (s.answered ⟨0x0B#8, tag, [b]⟩ [0x03#8])) ∧
      ∀ m : ChannelId,
        let f : HostFrame := ⟨0x0B#8, tag, byte m.val⟩
        let c := s.channel m
        let n := c.cfg.strand
        let x := s.strand n
        s.Takes f →
          ((∀ cause, c.lp.state ≠ .hardLock cause) → exec .releaseChannel s = .next (s.answered f [0x0C#8])) ∧
            ∀ cause, c.lp.state = .hardLock cause →
              ((∀ h, x.history.getLast? = some h →
                  h.recipe.leftMargin + h.recipe.rightMargin + 8 ≤ 8 * c.cfg.groups) →
                exec .releaseChannel s =
                  .next (((s.answered f [0x00#8, 0x02#8]).putChannel m
                    { c with
                      lp := { LineProcessor.initial .warmup with log := c.lp.log }
                      tt := { c.tt with slots := Vector.replicate 16 none } }).offer .channelLock
                    (byte m.val ++ byte n.val ++ [0x01#8, 0x01#8, 0x05#8] ++ le 4 x.lastTrigger))) ∧
                ∀ h, x.history.getLast? = some h →
                  8 * c.cfg.groups < h.recipe.leftMargin + h.recipe.rightMargin + 8 →
                    exec .releaseChannel s =
                      .next ((((s.answered f [0x00#8, 0x05#8]).putChannel m
                        { c with
                          lp := { LineProcessor.initial (.hardLock .window) with log := c.lp.log }
                          tt := { c.tt with slots := Vector.replicate 16 none }
                          stats := c.stats.set 21 (c.stats[21] + 1) }).putStrand n
                        { x with
                          billet :=
                            x.billet.map fun b =>
                              { b with
                                faces :=
                                  b.faces.set (faceIndex c.cfg.face)
                                    (b.faces[faceIndex c.cfg.face].map fun g => { g with hardLocked := true }) } }).offer
                        .channelLock
                        (byte m.val ++ byte n.val ++ [0x00#8, 0x01#8, 0x03#8] ++ le 4 x.lastTrigger))

/-! ### The recipe store (08) -/

/-- STORE_RECIPE, its checks in the order of R148: a bad slot, a bad polarity or crossing limits BAD_ARGUMENT, a
frozen slot FROZEN, an operation in flight BUSY; taken, the slot is WRITING at once, the operation in flight is the
STORE of the clamped record, and the reply carries the clamp mask of 3 bytes, whose flag i, of 21, is set exactly when
field i of the table of R146 is stored with another value than received; nothing else changes (R146, R148). -/
def Obligations.StoreRecipeBeginsAWrite : Prop :=
  ∀ (s : State) (tag slot : Byte) (r : Recipe), r.Fits →
    let f : HostFrame := ⟨0x0C#8, tag, [slot] ++ recipeBytes r⟩
    let kept := r.clamped
    let cross := r.conditionSingle ≠ 0 ∧ r.rejectSingle ≠ 0 ∧ r.rejectSingle < r.conditionSingle
    (∀ body : List Byte, body.length = 38 → 2 ≤ (body.getD 9 0).toNat → s.Takes ⟨0x0C#8, tag, body⟩ →
      exec .storeRecipe s = .next (s.answered ⟨0x0C#8, tag, body⟩ [0x03#8])) ∧
      (s.Takes f → (16 ≤ slot.toNat ∨ cross) → exec .storeRecipe s = .next (s.answered f [0x03#8])) ∧
      (s.Takes f → ∀ i : SlotId, i.val = slot.toNat → ¬cross →
        ((s.slot i).frozen = true → exec .storeRecipe s = .next (s.answered f [0x08#8])) ∧
            ((s.slot i).frozen = false → s.store.op ≠ .none →
              exec .storeRecipe s = .next (s.answered f [0x07#8])) ∧
            ((s.slot i).frozen = false → s.store.op = .none →
              ∃ mask : Nat,
                exec .storeRecipe s =
                    .next { s.answered f ([0x00#8] ++ le 3 mask) with
                      store := ⟨s.store.slots.set i { s.slot i with content := .writing }, .store i kept⟩ } ∧
                  mask < 2097152 ∧ (mask = 0 ↔ kept = r) ∧
                  ∀ i : Fin 21, mask.testBit i.val = true ↔ kept.fields[i.val]? ≠ r.fields[i.val]?))

/-- READ_RECIPE: a bad slot BAD_ARGUMENT, a WRITING slot BUSY, an EMPTY slot EMPTY; a VALID slot is answered with its
revision, its freeze flag and its content, whatever the operation in flight. A read changes nothing in the store
(R150). -/
def Obligations.ReadRecipeReturnsTheSlot : Prop :=
  ∀ (s : State) (tag : Byte),
    (∀ b : Byte, 16 ≤ b.toNat → s.Takes ⟨0x0D#8, tag, [b]⟩ →
      exec .readRecipe s = .next (s.answered ⟨0x0D#8, tag, [b]⟩ [0x03#8])) ∧
      ∀ i : SlotId,
        let f : HostFrame := ⟨0x0D#8, tag, byte i.val⟩
        s.Takes f →
          ((s.slot i).content = .writing → exec .readRecipe s = .next (s.answered f [0x07#8])) ∧
            ((s.slot i).content = .empty → exec .readRecipe s = .next (s.answered f [0x09#8])) ∧
            ∀ r, (s.slot i).content = .valid r →
              exec .readRecipe s =
                  .next (s.answered f
                    ([0x00#8] ++ le 2 (s.slot i).revision.toNat ++ byte (s.slot i).frozen.toNat ++ recipeBytes r)) ∧
                (recipeBytes r).length = 37

/-- FREEZE_RECIPE, its checks in the order of R151: a bad slot BAD_ARGUMENT, WRITING BUSY, EMPTY EMPTY, a frozen slot
OK with no effect, an operation in flight BUSY; otherwise the operation in flight is the FREEZE of the slot.
CLEAR_STORE: a strand not IDLE NOT_IDLE, an operation in flight BUSY; otherwise every slot is WRITING, its freeze flag
and revision held, and the operation in flight is CLEAR (R151, R152). -/
def Obligations.FreezeAndClearBeginOperations : Prop :=
  ∀ (s : State) (tag : Byte),
    (∀ b : Byte, 16 ≤ b.toNat → s.Takes ⟨0x0E#8, tag, [b]⟩ →
      exec .freezeRecipe s = .next (s.answered ⟨0x0E#8, tag, [b]⟩ [0x03#8])) ∧
      (∀ i : SlotId,
        let f : HostFrame := ⟨0x0E#8, tag, byte i.val⟩
        s.Takes f →
          ((s.slot i).content = .writing → exec .freezeRecipe s = .next (s.answered f [0x07#8])) ∧
            ((s.slot i).content = .empty → exec .freezeRecipe s = .next (s.answered f [0x09#8])) ∧
            ((s.slot i).content.isValid = true → (s.slot i).frozen = true →
              exec .freezeRecipe s = .next (s.answered f [0x00#8])) ∧
            ((s.slot i).content.isValid = true → (s.slot i).frozen = false → s.store.op ≠ .none →
              exec .freezeRecipe s = .next (s.answered f [0x07#8])) ∧
            ((s.slot i).content.isValid = true → (s.slot i).frozen = false → s.store.op = .none →
              exec .freezeRecipe s =
                .next { s.answered f [0x00#8] with store := { s.store with op := .freeze i } })) ∧
      (s.Takes ⟨0x0F#8, tag, []⟩ →
        ((∃ n, (s.strand n).state ≠ .idle) →
          exec .clearStore s = .next (s.answered ⟨0x0F#8, tag, []⟩ [0x05#8])) ∧
          ((∀ n, (s.strand n).state = .idle) → s.store.op ≠ .none →
            exec .clearStore s = .next (s.answered ⟨0x0F#8, tag, []⟩ [0x07#8])) ∧
          ((∀ n, (s.strand n).state = .idle) → s.store.op = .none →
            ∃ t, exec .clearStore s = .next t ∧ t = { s.answered ⟨0x0F#8, tag, []⟩ [0x00#8] with store := t.store } ∧
              t.store.op = .clear ∧ ∀ i, t.slot i = { s.slot i with content := .writing }))

/-- A completed STORE leaves the slot VALID, unfrozen, its revision one up and 65,535 going to 1, or EMPTY when the
write did not verify; a completed FREEZE sets the freeze flag, or leaves it; a completed CLEAR leaves every slot
EMPTY, unfrozen, revision 0. In each case no operation is in flight and a STORE_DONE notice is offered (R147, R149,
R151, R152). -/
def Obligations.StoreOperationsComplete : Prop :=
  ∀ (s : State), s.Runs →
    (∀ (i : SlotId) (r : Recipe), s.store.op = .store i r →
      let next : BitVec 16 := if (s.slot i).revision = 0xFFFF#16 then 1 else (s.slot i).revision + 1
      exec (.storeComplete true) s =
          .next (State.offer { s with store := ⟨s.store.slots.set i ⟨.valid r, false, next⟩, .none⟩ } .storeDone
            ([0x01#8] ++ byte i.val ++ [0x00#8, 0x02#8] ++ le 2 next.toNat)) ∧
        exec (.storeComplete false) s =
          .next (State.offer
            { s with store := ⟨s.store.slots.set i { s.slot i with content := .empty }, .none⟩ } .storeDone
            ([0x01#8] ++ byte i.val ++ [0x0D#8, 0x00#8] ++ le 2 (s.slot i).revision.toNat))) ∧
      (∀ (i : SlotId), s.store.op = .freeze i → (s.slot i).content.isValid = true → (s.slot i).frozen = false →
        exec (.freezeComplete true) s =
            .next (State.offer
              { s with store := ⟨s.store.slots.set i { s.slot i with frozen := true }, .none⟩ } .storeDone
              ([0x02#8] ++ byte i.val ++ [0x00#8, 0x02#8] ++ le 2 (s.slot i).revision.toNat)) ∧
          exec (.freezeComplete false) s =
            .next (State.offer { s with store := { s.store with op := .none } } .storeDone
              ([0x02#8] ++ byte i.val ++ [0x0D#8, 0x02#8] ++ le 2 (s.slot i).revision.toNat))) ∧
      (s.store.op = .clear →
        exec .clearComplete s =
          .next (State.offer { s with store := ⟨Vector.replicate 16 ⟨.empty, false, 0⟩, .none⟩ } .storeDone
            [0x03#8, 0xFF#8, 0x00#8, 0x00#8, 0x00#8, 0x00#8]))

/-! ### Scan line intake (02) and what a line does (03 to 06) -/

/-- A HUNTING receiver that has seen the sync pair and a header with 4 to 32 column groups is RECEIVING, and nothing
else changes (R23). A frame that completes or fails while its channel is disabled or its strand IDLE is counted STRAY
and has no other effect: none of the checks of R25 is applied to it (R24). That a gap in the header, which finds the
receiver HUNTING, is such a failing frame is the model's reading (log 6, DEDUCED). -/
def Obligations.FramesOutsideACastAreStray : Prop :=
  ∀ (s : State) (m : ChannelId), s.Runs →
    (∀ h : ScanHeader, (s.channel m).rx.framing = .hunting → 4 ≤ h.groups.toNat → h.groups.toNat ≤ 32 →
      exec (.syncPair m h) s =
        .next (s.putChannel m
          { s.channel m with rx := { (s.channel m).rx with framing := .receiving h } })) ∧
      (¬s.InCast m →
        (∀ f : ScanFrame, (s.channel m).rx.framing = .receiving f.header →
          f.groupBytes.length = 13 * f.header.groups.toNat →
            exec (.scanFrame m f) s = .next (s.setAside m .stray)) ∧
          (∀ f : ScanFrame, (s.channel m).rx.framing = .hunting →
            (f.header.groups.toNat < 4 ∨ 32 < f.header.groups.toNat) →
              exec (.scanFrame m f) s = .next (s.setAside m .stray)) ∧
          (∀ h, (s.channel m).rx.framing = .receiving h →
            exec (.scanGapTimeout m false) s = .next (s.setAside m .stray)) ∧
          ((s.channel m).rx.framing = .hunting →
            exec (.scanGapTimeout m true) s = .next (s.setAside m .stray)))

/-- In a cast, a gap, a failed CRC and an unusable header are counted FRAME_ERROR, and a wrong column group count
FORMAT; while QUIET they have no further effect, while AWAITING they end the await and the line is settled DISCARDED
(R23, R25, R32). That a gap in the header, which finds the receiver HUNTING, is such a failing frame is the model's
reading (log 6, DEDUCED). -/
def Obligations.FaultyFramesDiscardTheLine : Prop :=
  ∀ (s : State) (m : ChannelId) (c : Instr) (k : ChannelCounter), s.Runs → s.InCast m →
    (k = .frameError ∧
          (c = .scanGapTimeout m false ∧ (∃ h, (s.channel m).rx.framing = .receiving h) ∨
            c = .scanGapTimeout m true ∧ (s.channel m).rx.framing = .hunting ∨
            (∃ f, c = .scanFrame m f ∧ (s.channel m).rx.framing = .receiving f.header ∧
              f.groupBytes.length = 13 * f.header.groups.toNat ∧
              f.crc ≠ crc16 ([f.header.headId, f.header.status, f.header.tag, f.header.groups] ++ f.groupBytes)) ∨
            ∃ f, c = .scanFrame m f ∧ (s.channel m).rx.framing = .hunting ∧
              (f.header.groups.toNat < 4 ∨ 32 < f.header.groups.toNat)) ∨
        k = .format ∧
          ∃ f, c = .scanFrame m f ∧ s.Completes m f ∧ f.header.headId = (s.channel m).cfg.headId ∧
            f.header.status.getLsbD 0 = false ∧ f.header.groups.toNat ≠ (s.channel m).cfg.groups) →
      ((s.channel m).rx.await = .quiet → exec c s = .next (s.setAside m k)) ∧
        ∀ line coord expected, (s.channel m).rx.await = .awaiting line coord expected →
          ∃ t, exec c s = .next t ∧ Settles m coord expected (s.channel m).rx.tagOffset .hunting k s t ∧
            t.channelCount m .groupCheck = s.channelCount m .groupCheck

/-- A frame with a foreign head id is counted STRAY, and the await continues; so is a frame in QUIET whose tag is not
the last expected tag. A frame of the tag before the expected one while AWAITING, or of the last expected tag while
QUIET, is counted LATE. None has any other effect (R25, R27, R29). -/
def Obligations.ForeignAndLateFramesAreSetAside : Prop :=
  ∀ (s : State) (m : ChannelId) (f : ScanFrame), s.Runs → s.InCast m → s.Completes m f →
    (f.header.headId ≠ (s.channel m).cfg.headId → exec (.scanFrame m f) s = .next (s.setAside m .stray)) ∧
      (s.Accepts m f →
        (∀ k coord expected, (s.channel m).rx.await = .awaiting k coord expected → f.header.tag = expected - 1 →
          exec (.scanFrame m f) s = .next (s.setAside m .late)) ∧
          ((s.channel m).rx.await = .quiet →
            ((s.channel m).rx.lastExpected = some f.header.tag →
              exec (.scanFrame m f) s = .next (s.setAside m .late)) ∧
              ((s.channel m).rx.lastExpected ≠ some f.header.tag →
                exec (.scanFrame m f) s = .next (s.setAside m .stray))))

/-- A frame with the expected tag is taken: the await ends, Lines taken rises by one and the group-check failures
counter by the number of groups whose check byte is not the exclusive OR of their 12 bytes, and the line is settled
once (R27, R32, R33). -/
def Obligations.ExpectedFramesAreTaken : Prop :=
  ∀ (s : State) (m : ChannelId) (f : ScanFrame) (k coord : Nat), s.Runs → s.InCast m → s.Completes m f →
    s.Accepts m f → (s.channel m).rx.await = .awaiting k coord f.header.tag →
      ∃ t, exec (.scanFrame m f) s = .next t ∧
        Settles m coord f.header.tag (s.channel m).rx.tagOffset .hunting .linesTaken s t ∧
        t.channelCount m .groupCheck =
          s.channelCount m .groupCheck +
            BitVec.ofNat 32
              ((List.range f.header.groups.toNat).filter fun g =>
                ((f.groupBytes.drop (13 * g)).take 12).foldl (· ^^^ ·) 0#8 != f.groupBytes.getD (13 * g + 12) 0#8).length

/-- Any other tag discards the awaited line, and the receiver learns the new offset, (received tag − k) mod 256, with
the received tag as its last expected tag; the TAG_RESYNC notice, offered last, carries the offset before and after
(R27, R28; log 12 for the order). -/
def Obligations.TagMismatchesResynchronise : Prop :=
  ∀ (s : State) (m : ChannelId) (f : ScanFrame) (k coord : Nat) (expected : Byte), s.Runs → s.InCast m →
    s.Completes m f → s.Accepts m f → (s.channel m).rx.await = .awaiting k coord expected →
      f.header.tag ≠ expected → f.header.tag ≠ expected - 1 →
        ∃ t, exec (.scanFrame m f) s = .next t ∧
          Settles m coord f.header.tag (f.header.tag - BitVec.ofNat 8 k) .hunting .tagMismatch s t ∧
          OfferedLast .tagResync
            (byte m.val ++ byte (s.channel m).cfg.strand.val ++ le 4 coord ++
              [f.header.tag, (s.channel m).rx.tagOffset, f.header.tag - BitVec.ofNat 8 k])
            s t

/-- When the line wait timer of line k expires while it is awaited, the line is settled MISSED and counted, and the
receiver is QUIET with its expected tag as the last expected one (R31); a stale timer has no effect (R36). -/
def Obligations.ExpiredWaitsAreMissed : Prop :=
  ∀ (s : State) (m : ChannelId) (k coord : Nat) (expected : Byte), s.Runs →
    (s.channel m).rx.await = .awaiting k coord expected →
      (∃ t, exec (.lineWaitExpiry m k) s = .next t ∧
        Settles m coord expected (s.channel m).rx.tagOffset (s.channel m).rx.framing .missed s t ∧
        t.channelCount m .groupCheck = s.channelCount m .groupCheck) ∧
        ∀ j, j ≠ k → exec (.lineWaitExpiry m j) s = .next s

/-- A HEAD_FAULT frame with the configured head id locks a channel that is WARMUP, ACTIVE or SOFT_LOCK: unseeded, its
slots FREE, the entry counted, HARD_LOCKED set on its face of the open billet; when it is QUIET, with cause HEAD, its
log kept, and the notice offered at the last triggered line. In a QUIET channel already in HARD_LOCK the frame is only
counted. An awaited line is discarded and enters the coverage log as UNAVAILABLE; a channel already in HARD_LOCK stays
as it is but for that and for holding its tracks (R26, R82, R84, R85, R89). -/
def Obligations.HeadFaultsLockTheChannel : Prop :=
  ∀ (s : State) (m : ChannelId) (f : ScanFrame), s.Runs → s.InCast m → s.Completes m f →
    f.header.headId = (s.channel m).cfg.headId → f.header.status.getLsbD 0 = true →
      let c := s.channel m
      let n := c.cfg.strand
      let settles : Nat → HistoryEntry → Prop := fun coord e =>
        (∃ k expected, c.rx.await = .awaiting k coord expected) ∧
          ((s.strand n).history.filter fun h => h.coord ≤ coord).getLast? = some e
      ((∃ cause, c.lp.state = .hardLock cause) → c.rx.await = .quiet →
        exec (.scanFrame m f) s = .next (s.setAside m .headFault)) ∧
        (∀ coord e, (∃ cause, c.lp.state = .hardLock cause) → settles coord e →
          ∃ t, exec (.scanFrame m f) s = .next t ∧
            (t.channel m).lp = { c.lp with log := enterCoverage coord .unavailable c.lp.log } ∧
            HeldBy (s.strand n).cfg.countsPerLine coord e.recipe c.tt (t.channel m).tt ∧
            (t.channel m).rx.await = .quiet ∧ t.channelCount m .headFault = s.channelCount m .headFault + 1 ∧
            t.channelCount m .hardEntries = s.channelCount m .hardEntries ∧ LineKept m s t) ∧
        ((c.lp.state = .warmup ∨ c.lp.state = .active ∨ ∃ left, c.lp.state = .softLock left) →
          ∃ t, exec (.scanFrame m f) s = .next t ∧ (∃ cause, (t.channel m).lp.state = .hardLock cause) ∧
            (t.channel m).lp.Unseeded ∧ (t.channel m).lp.linkRun = 0 ∧ (t.channel m).tt.Empty ∧
            (∀ coord e, settles coord e → (t.channel m).lp.log = enterCoverage coord .unavailable c.lp.log) ∧
            (t.channel m).rx.await = .quiet ∧ t.channelCount m .headFault = s.channelCount m .headFault + 1 ∧
            t.channelCount m .hardEntries = s.channelCount m .hardEntries + 1 ∧ LineKept m s t ∧
            (∀ b, (s.strand n).billet = some b →
              ∃ b', (t.strand n).billet = some b' ∧ b'.number = b.number ∧ b'.head = b.head ∧
                b'.faces[faceIndex c.cfg.face] =
                  b.faces[faceIndex c.cfg.face].map fun g => { g with hardLocked := true }) ∧
            (c.rx.await = .quiet →
              (t.channel m).lp = { LineProcessor.initial (.hardLock .head) with log := c.lp.log } ∧
                ∃ u : State, u.hli = s.hli ∧ u.linkStats = s.linkStats ∧
                  t = u.offer .channelLock
                    (byte m.val ++ byte n.val ++ [0x00#8, 0x01#8, 0x02#8] ++ le 4 (s.strand n).lastTrigger)))

/-- What a settled line that is not processed does to the locks of a channel: MISSED at the expiry of its wait or by
the next trigger, DISCARDED with a cause other than HEAD_FAULT, TAKEN and obscured, TAKEN and clear in SOFT_LOCK, and
any of them in HARD_LOCK. A lost line lengthens the link run, which a TAKEN line clears, and at missed_limit it locks
the channel hard with cause LINK. Otherwise the third line in a row without sight of the face locks a WARMUP or ACTIVE
channel softly; the third clear line in a row in SOFT_LOCK returns it to the state it left; and a line beyond
soft_lock_max in SOFT_LOCK locks it hard with cause OBSCURED. Short of these the channel stays. In HARD_LOCK its state,
cause, counts and link run stay, and no lock or obscured line is counted. Baselines and warm-up count are kept but by a
hard lock, and the tracks are held. Each lock entered or left is counted and notified, the line is entered in its
coverage class, and an obscured one is counted (R30, R76 to R81, R84, R85, R87, R89, R98). Of the next trigger this is
said where no schedule entry is due. Two readings of the model's own stand in it, both DEDUCED and unsafe: that a gap
in the header, which finds the receiver HUNTING, discards the line as a framing failure (log 6), and that at a tag
mismatch the CHANNEL_LOCK notice stands before TAG_RESYNC (log 12). -/
def Obligations.LostLinesLockTheChannel : Prop :=
  ∀ (s : State) (m : ChannelId) (k coord : Nat) (expected : Byte) (e : HistoryEntry),
    (s.channel m).rx.await = .awaiting k coord expected →
      ((s.strandOf m).history.filter fun h => h.coord ≤ coord).getLast? = some e →
        (∀ (c : Instr) (sight : Sight), s.Runs → s.Shows m k expected e.recipe c sight →
          sight.unprocessed (s.channel m).lp.state →
            ∃ t, exec c s = .next t ∧
              LocksMove m coord e.recipe sight (fun left hard cause => LockOffered m left hard cause coord s t) s t) ∧
          ∀ (n : StrandId) (input : EncInput), s.Triggers n input → (s.channel m).cfg.enabled = true →
            (s.channel m).cfg.strand = n →
            (∀ g, (s.strand n).schedule.head? = some g → (s.strand n).nextTrigger < g.coord) →
              Sight.unprocessed .lost (s.channel m).lp.state →
                ∃ t, exec (.encoderCount n input) s = .next t ∧
                  LocksMove m coord e.recipe .lost
                    (fun left hard cause => OfferedAmong .channelLock (lockBody m n left hard cause coord) s t) s t

/-- A line joins the newest coverage segment where that has its class, and opens a new one otherwise; into a log of 64
segments only after the two oldest have become one, with the start of the older, the worse class and the sum of the
counts: no line is lost (R90, R91). -/
def Obligations.CoverageEntersOneLine : Prop :=
  ∀ (line : Nat) (cls : Coverage) (log : List Segment),
    (∀ older newest, log = older ++ [newest] → newest.cls = cls →
      enterCoverage line cls log = older ++ [{ newest with count := newest.count + 1 }]) ∧
      (log = [] → enterCoverage line cls log = [⟨line, cls, 1⟩]) ∧
      ((∀ newest, log.getLast? = some newest → newest.cls ≠ cls) →
        (log.length < 64 → enterCoverage line cls log = log ++ [⟨line, cls, 1⟩]) ∧
          ∀ a b rest, log = a :: b :: rest → log.length = 64 →
            enterCoverage line cls log =
              ⟨a.start,
                  if a.cls = .unavailable ∨ b.cls = .unavailable then .unavailable
                  else if a.cls = .obscured ∨ b.cls = .obscured then .obscured
                  else .inspected,
                  a.count + b.count⟩ ::
                rest ++ [⟨line, cls, 1⟩]) ∧
      logLines (enterCoverage line cls log) = logLines log + 1 ∧
      (log.length ≤ 64 → (enterCoverage line cls log).length ≤ 64)

/-- A processed line moves the baselines of its usable window columns, by the sample and the baseline as it stood: an
unseeded column is seeded in WARMUP; a seeded one steps toward the sample by a quotient truncated toward zero, with
divisor 2^shift_k, or 2^(shift_k + 3) for a hit, which needs ACTIVE and a residual at or above hit_threshold. Every
other column is left as it was. In WARMUP the count rises by one, and at warm_lines the channel becomes ACTIVE. The
line enters the coverage log as INSPECTED in ACTIVE and as UNAVAILABLE in WARMUP (R40 to R45, R47, R49, R89). -/
def Obligations.ProcessedLinesMoveTheBaselines : Prop :=
  ∀ (s : State) (m : ChannelId) (f : ScanFrame) (k coord : Nat) (e : HistoryEntry), s.Runs → s.InCast m →
    s.Completes m f → s.Accepts m f → (s.channel m).rx.await = .awaiting k coord f.header.tag →
      let c := s.channel m
      let r := e.recipe
      let samples := frameSamples f
      let active := decide (c.lp.state = .active)
      let inWin : Nat → Bool := fun j => decide (r.leftMargin ≤ j) && decide (j + r.rightMargin < 8 * c.cfg.groups)
      let fit : Nat → Bool := fun j =>
        let x := samples.getD j ⟨0, true⟩
        !x.invalid && x.value != 0 && x.value != 4095 &&
          ((c.lp.columns.getD j ⟨0, false⟩).seeded || !active)
      let lost := ((List.range (8 * c.cfg.groups)).filter fun j => inWin j && !fit j).length
      ((s.strand c.cfg.strand).history.filter fun h => h.coord ≤ coord).getLast? = some e →
        (c.lp.state = .warmup ∨ c.lp.state = .active) →
        100 * lost < r.obscurePct * (8 * c.cfg.groups - r.leftMargin - r.rightMargin) →
          ∃ t, exec (.scanFrame m f) s = .next t ∧
            (∀ j : Fin 256,
              (t.channel m).lp.columns[j] =
                (let col := c.lp.columns[j]
                let x := (samples.getD j ⟨0, true⟩).value
                let d : Int := 16 * x - col.baseline
                let residual : Int := if r.polarity = .dark then (-d).tdiv 16 else d.tdiv 16
                let hit := active && decide ((r.hitThreshold : Int) ≤ residual)
                if inWin j && fit j then
                  if col.seeded then
                    ⟨(col.baseline + d.tdiv (2 ^ (if hit then r.shiftK + 3 else r.shiftK))).toNat, true⟩
                  else ⟨16 * x, true⟩
                else col)) ∧
            (t.channel m).lp.linkRun = 0 ∧ (t.channel m).lp.obscuredRun = 0 ∧
            (t.channel m).lp.log =
              enterCoverage coord (if c.lp.state = .active then .inspected else .unavailable) c.lp.log ∧
            (c.lp.state = .active → (t.channel m).lp.state = .active ∧ (t.channel m).lp.warmCount = c.lp.warmCount) ∧
            (c.lp.state = .warmup →
              (t.channel m).lp.warmCount = c.lp.warmCount + 1 ∧
                (t.channel m).lp.state =
                  if r.warmLines ≤ c.lp.warmCount + 1 then .active else .warmup)

/-- The runs of a processed ACTIVE line: the first 16 count, more are RUN_OVERFLOW; those wider than narrow_max are
wide, and a wide run is MARK when the gate is open and mark_crack_threshold is off or above its peak, and TRANSVERSE
otherwise. The gate is open when a forecast lies within the half window of the line. Each TRANSVERSE run becomes a
record of one line pitch, AT_MARK when the gate was open; said where the pending queue has room for a line's records
(R48, R56 to R59, R65 to R69). -/
def Obligations.WideRunsAreMarksInsideTheGate : Prop :=
  ∀ (s : State) (m : ChannelId) (f : ScanFrame) (k coord : Nat) (e : HistoryEntry), s.Runs → s.InCast m →
    s.Completes m f → s.Accepts m f → (s.channel m).rx.await = .awaiting k coord f.header.tag →
      let c := s.channel m
      let x := s.strand c.cfg.strand
      let r := e.recipe
      let window := (List.range (8 * c.cfg.groups)).filter fun j =>
        decide (r.leftMargin ≤ j) && decide (j + r.rightMargin < 8 * c.cfg.groups)
      let sample : Nat → Sample := fun j => (frameSamples f).getD j ⟨0, true⟩
      let column : Nat → Column := fun j => c.lp.columns.getD j ⟨0, false⟩
      let fit : Nat → Bool := fun j =>
        !(sample j).invalid && (sample j).value != 0 && (sample j).value != 4095 && (column j).seeded
      let residual : Nat → Int := fun j =>
        if r.polarity = .dark then ((column j).baseline - 16 * (sample j).value : Int).tdiv 16
        else (16 * (sample j).value - (column j).baseline : Int).tdiv 16
      let hits := (window.filter fun j => fit j && decide ((r.hitThreshold : Int) ≤ residual j)).map fun j =>
        (j, (residual j).toNat)
      let runs := (runsOf r.runBridge hits).take 16
      let wide := runs.filter fun run => decide (r.narrowMax < run.last - run.first + 1)
      let gate := x.forecasts.any fun g =>
        decide (g ≤ coord + x.cfg.markHalfWindow) && decide (coord ≤ g + x.cfg.markHalfWindow)
      let marks := wide.filter fun run => gate && (r.markCrack == 0 || decide (run.peak < r.markCrack))
      (x.history.filter fun h => h.coord ≤ coord).getLast? = some e → c.lp.state = .active →
        100 * (window.filter fun j => !fit j).length <
            r.obscurePct * (8 * c.cfg.groups - r.leftMargin - r.rightMargin) →
          ∃ t, exec (.scanFrame m f) s = .next t ∧
            t.channelCount m .narrowRuns =
              s.channelCount m .narrowRuns + BitVec.ofNat 32 (runs.length - wide.length) ∧
            t.channelCount m .wideRuns = s.channelCount m .wideRuns + BitVec.ofNat 32 wide.length ∧
            t.channelCount m .mark = s.channelCount m .mark + BitVec.ofNat 32 marks.length ∧
            t.channelCount m .transverse =
              s.channelCount m .transverse + BitVec.ofNat 32 (wide.length - marks.length) ∧
            t.channelCount m .runOverflow =
              s.channelCount m .runOverflow + (if 16 < (runsOf r.runBridge hits).length then 1 else 0) ∧
            (x.defects.length ≤ 64 → ∀ run ∈ wide, run ∉ marks →
              ⟨.transverse, m, c.cfg.face, coord, coord + x.cfg.countsPerLine,
                  min 65535 ((x.cfg.countsPerLine * x.cfg.umPerCount + 500) / 1000), run.first, run.last, run.peak,
                  false, false, false, gate⟩ ∈ (t.strand c.cfg.strand).defects)

/-- The runs of a line: each begins and ends on a hit column and carries the largest residual of its hits; every hit
lies in one run; two hits that follow one another lie in one run exactly when at most run_bridge columns separate
them; the runs stand from left to right with more than run_bridge columns between them (R56, R57). -/
def Obligations.RunsJoinHitsAcrossTheBridge : Prop :=
  ∀ (bridge : Nat) (hits : List (Nat × Nat)), (hits.map (·.1)).Pairwise (· < ·) →
    let runs := runsOf bridge hits
    let holds : Run → Nat × Nat → Prop := fun run h => run.first ≤ h.1 ∧ h.1 ≤ run.last
    (∀ run ∈ runs,
      (∃ p, (run.first, p) ∈ hits) ∧ (∃ p, (run.last, p) ∈ hits) ∧ run.first ≤ run.last ∧
        (∃ h ∈ hits, holds run h ∧ h.2 = run.peak) ∧ ∀ h ∈ hits, holds run h → h.2 ≤ run.peak) ∧
      (∀ h ∈ hits, ∃ run ∈ runs, holds run h) ∧
      runs.Pairwise (fun a b => a.last + bridge + 1 < b.first) ∧
      ∀ left g h right, hits = left ++ g :: h :: right →
        ((∃ run ∈ runs, holds run g ∧ holds run h) ↔ h.1 ≤ g.1 + bridge + 1)

/-- A narrow run goes to the track at the smallest distance within the gate among those not yet associated on the
line, then to the one with the smallest start, then to the lowest slot; it finds none exactly when there is no
candidate (R99). A processed ACTIVE line hands its narrow runs over so, after tentative expiry: a run without a
candidate opens a track or, with no slot FREE, is dropped and flagged; each track of before the line is hit, covered
or missed, and a miss may end it; the records of the tracks it closes that are long enough reach the pending queue,
said where that has room for a line's records. Each is counted (R58, R59, R96, R97, R99 to R109). -/
def Obligations.RunsGoToTheNearestTrack : Prop :=
  (∀ (gate : Nat) (run : Run) (work : Vector Work 16),
    let may : SlotId → Track → Prop := fun i t =>
      (work[i]).track = some t ∧ (work[i]).run = none ∧ (work[i]).opened = false ∧
        columnsApart run.centre t.centre ≤ gate
    let before : SlotId → Track → SlotId → Track → Prop := fun i t j u =>
      columnsApart run.centre t.centre < columnsApart run.centre u.centre ∨
        columnsApart run.centre t.centre = columnsApart run.centre u.centre ∧
          (t.start < u.start ∨ t.start = u.start ∧ i ≤ j)
    (bestCandidate gate run work allSlots = none ↔ ∀ i t, ¬may i t) ∧
      ∀ i d, bestCandidate gate run work allSlots = some (i, d) →
        ∃ t, may i t ∧ ∀ j u, may j u → before i t j u) ∧
    ∀ (s : State) (m : ChannelId) (f : ScanFrame) (k coord : Nat) (e : HistoryEntry), s.Runs →
      (s.channel m).rx.await = .awaiting k coord f.header.tag →
        ((s.strandOf m).history.filter fun h => h.coord ≤ coord).getLast? = some e → (s.channel m).lp.state = .active →
          s.Shows m k f.header.tag e.recipe (.scanFrame m f) .clear →
            let c := s.channel m
            let x := s.strandOf m
            let r := e.recipe
            let all := runsOf r.runBridge (c.lp.hitsOn r c.cfg.groups (frameSamples f))
            let narrow := (all.take 16).filter fun run => decide (run.last - run.first + 1 ≤ r.narrowMax)
            let wide := (all.take 16).filter fun run => decide (r.narrowMax < run.last - run.first + 1)
            ∃ t a, exec (.scanFrame m f) s = .next t ∧ AssociationOf x.cfg.countsPerLine coord r narrow wide c.tt a ∧
              (t.channel m).tt = a.table ∧
              t.channelCount m .tracksOpened = s.channelCount m .tracksOpened + BitVec.ofNat 32 a.opened ∧
              t.channelCount m .tracksConfirmed = s.channelCount m .tracksConfirmed + BitVec.ofNat 32 a.confirmed ∧
              t.channelCount m .tableFull = s.channelCount m .tableFull + BitVec.ofNat 32 a.dropped ∧
              (∀ b, x.billet = some b → ∃ b', (t.strandOf m).billet = some b' ∧
                b'.faces[faceIndex c.cfg.face] =
                  b.faces[faceIndex c.cfg.face].map fun g =>
                    { g with
                      runOverflow := g.runOverflow || decide (16 < all.length)
                      tableFull := g.tableFull || decide (0 < a.dropped) }) ∧
              let formed := a.closed.map fun tr => tr.record m c.cfg.face x.cfg
              let sent := longOnes r.minDefectMm formed
              t.channelCount m .recordsEmitted = s.channelCount m .recordsEmitted + BitVec.ofNat 32 sent.length ∧
                t.channelCount m .tooShort =
                  s.channelCount m .tooShort + BitVec.ofNat 32 (formed.length - sent.length) ∧
                (x.defects.length ≤ 64 →
                  ∃ added, (t.strandOf m).defects = x.defects ++ added ∧ sent.Sublist added)
end

