-- ==== Sys2Proof/Laws/State.lean ====
section
/-! SUPPORT. The field lemmas of the state's updates: each field after each update, and what is read back after a
write of a strand, a channel or a store slot. All are true by computation. -/

namespace Sys2Proof.Machine

/-! ### Replacing a strand, a channel, a slot -/

@[simp] theorem State.putStrand_channels (s : State) (n : StrandId) (x : Strand) : (s.putStrand n x).channels = s.channels := rfl

@[simp] theorem State.putStrand_rq (s : State) (n : StrandId) (x : Strand) : (s.putStrand n x).rq = s.rq := rfl

@[simp] theorem State.putStrand_store (s : State) (n : StrandId) (x : Strand) : (s.putStrand n x).store = s.store := rfl

@[simp] theorem State.putStrand_hli (s : State) (n : StrandId) (x : Strand) : (s.putStrand n x).hli = s.hli := rfl

@[simp] theorem State.putStrand_linkStats (s : State) (n : StrandId) (x : Strand) : (s.putStrand n x).linkStats = s.linkStats := rfl

@[simp] theorem State.putStrand_sup (s : State) (n : StrandId) (x : Strand) : (s.putStrand n x).sup = s.sup := rfl

@[simp] theorem State.putStrand_draws (s : State) (n : StrandId) (x : Strand) : (s.putStrand n x).draws = s.draws := rfl

@[simp] theorem State.putStrand_pending (s : State) (n : StrandId) (x : Strand) : (s.putStrand n x).pending = s.pending := rfl

@[simp] theorem State.putStrand_strands (s : State) (n : StrandId) (x : Strand) :
    (s.putStrand n x).strands = s.strands.set n x := rfl

@[simp] theorem State.putChannel_strands (s : State) (m : ChannelId) (x : Channel) : (s.putChannel m x).strands = s.strands := rfl

@[simp] theorem State.putChannel_rq (s : State) (m : ChannelId) (x : Channel) : (s.putChannel m x).rq = s.rq := rfl

@[simp] theorem State.putChannel_store (s : State) (m : ChannelId) (x : Channel) : (s.putChannel m x).store = s.store := rfl

@[simp] theorem State.putChannel_hli (s : State) (m : ChannelId) (x : Channel) : (s.putChannel m x).hli = s.hli := rfl

@[simp] theorem State.putChannel_linkStats (s : State) (m : ChannelId) (x : Channel) : (s.putChannel m x).linkStats = s.linkStats := rfl

@[simp] theorem State.putChannel_sup (s : State) (m : ChannelId) (x : Channel) : (s.putChannel m x).sup = s.sup := rfl

@[simp] theorem State.putChannel_draws (s : State) (m : ChannelId) (x : Channel) : (s.putChannel m x).draws = s.draws := rfl

@[simp] theorem State.putChannel_pending (s : State) (m : ChannelId) (x : Channel) : (s.putChannel m x).pending = s.pending := rfl

@[simp] theorem State.putChannel_channels (s : State) (m : ChannelId) (x : Channel) :
    (s.putChannel m x).channels = s.channels.set m x := rfl

@[simp] theorem State.putSlot_strands (s : State) (i : SlotId) (x : Slot) : (s.putSlot i x).strands = s.strands := rfl

@[simp] theorem State.putSlot_channels (s : State) (i : SlotId) (x : Slot) : (s.putSlot i x).channels = s.channels := rfl

@[simp] theorem State.putSlot_rq (s : State) (i : SlotId) (x : Slot) : (s.putSlot i x).rq = s.rq := rfl

@[simp] theorem State.putSlot_hli (s : State) (i : SlotId) (x : Slot) : (s.putSlot i x).hli = s.hli := rfl

@[simp] theorem State.putSlot_linkStats (s : State) (i : SlotId) (x : Slot) : (s.putSlot i x).linkStats = s.linkStats := rfl

@[simp] theorem State.putSlot_sup (s : State) (i : SlotId) (x : Slot) : (s.putSlot i x).sup = s.sup := rfl

@[simp] theorem State.putSlot_draws (s : State) (i : SlotId) (x : Slot) : (s.putSlot i x).draws = s.draws := rfl

@[simp] theorem State.putSlot_pending (s : State) (i : SlotId) (x : Slot) : (s.putSlot i x).pending = s.pending := rfl

@[simp] theorem State.putSlot_store (s : State) (i : SlotId) (x : Slot) :
    (s.putSlot i x).store = { s.store with slots := s.store.slots.set i x } := rfl

/-! ### Changing the host link, the supervisor, the counters of the link -/

@[simp] theorem State.modHli_strands (s : State) (f : Hli → Hli) : (s.modHli f).strands = s.strands := rfl

@[simp] theorem State.modHli_channels (s : State) (f : Hli → Hli) : (s.modHli f).channels = s.channels := rfl

@[simp] theorem State.modHli_rq (s : State) (f : Hli → Hli) : (s.modHli f).rq = s.rq := rfl

@[simp] theorem State.modHli_store (s : State) (f : Hli → Hli) : (s.modHli f).store = s.store := rfl

@[simp] theorem State.modHli_linkStats (s : State) (f : Hli → Hli) : (s.modHli f).linkStats = s.linkStats := rfl

@[simp] theorem State.modHli_sup (s : State) (f : Hli → Hli) : (s.modHli f).sup = s.sup := rfl

@[simp] theorem State.modHli_draws (s : State) (f : Hli → Hli) : (s.modHli f).draws = s.draws := rfl

@[simp] theorem State.modHli_pending (s : State) (f : Hli → Hli) : (s.modHli f).pending = s.pending := rfl

@[simp] theorem State.modHli_hli (s : State) (f : Hli → Hli) :
    (s.modHli f).hli = f s.hli := rfl

@[simp] theorem State.modSup_strands (s : State) (f : Supervisor → Supervisor) : (s.modSup f).strands = s.strands := rfl

@[simp] theorem State.modSup_channels (s : State) (f : Supervisor → Supervisor) : (s.modSup f).channels = s.channels := rfl

@[simp] theorem State.modSup_rq (s : State) (f : Supervisor → Supervisor) : (s.modSup f).rq = s.rq := rfl

@[simp] theorem State.modSup_store (s : State) (f : Supervisor → Supervisor) : (s.modSup f).store = s.store := rfl

@[simp] theorem State.modSup_hli (s : State) (f : Supervisor → Supervisor) : (s.modSup f).hli = s.hli := rfl

@[simp] theorem State.modSup_linkStats (s : State) (f : Supervisor → Supervisor) : (s.modSup f).linkStats = s.linkStats := rfl

@[simp] theorem State.modSup_draws (s : State) (f : Supervisor → Supervisor) : (s.modSup f).draws = s.draws := rfl

@[simp] theorem State.modSup_pending (s : State) (f : Supervisor → Supervisor) : (s.modSup f).pending = s.pending := rfl

@[simp] theorem State.modSup_sup (s : State) (f : Supervisor → Supervisor) :
    (s.modSup f).sup = f s.sup := rfl

@[simp] theorem State.raiseLink_strands (s : State) (c : LinkCounter) : (s.raiseLink c).strands = s.strands := rfl

@[simp] theorem State.raiseLink_channels (s : State) (c : LinkCounter) : (s.raiseLink c).channels = s.channels := rfl

@[simp] theorem State.raiseLink_rq (s : State) (c : LinkCounter) : (s.raiseLink c).rq = s.rq := rfl

@[simp] theorem State.raiseLink_store (s : State) (c : LinkCounter) : (s.raiseLink c).store = s.store := rfl

@[simp] theorem State.raiseLink_hli (s : State) (c : LinkCounter) : (s.raiseLink c).hli = s.hli := rfl

@[simp] theorem State.raiseLink_sup (s : State) (c : LinkCounter) : (s.raiseLink c).sup = s.sup := rfl

@[simp] theorem State.raiseLink_draws (s : State) (c : LinkCounter) : (s.raiseLink c).draws = s.draws := rfl

@[simp] theorem State.raiseLink_pending (s : State) (c : LinkCounter) : (s.raiseLink c).pending = s.pending := rfl

@[simp] theorem State.raiseLink_linkStats (s : State) (c : LinkCounter) :
    (s.raiseLink c).linkStats = s.linkStats.set (linkIndex c) (s.linkStats[linkIndex c] + 1) := rfl

@[simp] theorem State.drawn_strands (s : State) (k : Nat) : (s.drawn k).strands = s.strands := rfl

@[simp] theorem State.drawn_channels (s : State) (k : Nat) : (s.drawn k).channels = s.channels := rfl

@[simp] theorem State.drawn_rq (s : State) (k : Nat) : (s.drawn k).rq = s.rq := rfl

@[simp] theorem State.drawn_store (s : State) (k : Nat) : (s.drawn k).store = s.store := rfl

@[simp] theorem State.drawn_hli (s : State) (k : Nat) : (s.drawn k).hli = s.hli := rfl

@[simp] theorem State.drawn_linkStats (s : State) (k : Nat) : (s.drawn k).linkStats = s.linkStats := rfl

@[simp] theorem State.drawn_sup (s : State) (k : Nat) : (s.drawn k).sup = s.sup := rfl

@[simp] theorem State.drawn_pending (s : State) (k : Nat) : (s.drawn k).pending = s.pending := rfl

@[simp] theorem State.drawn_draws (s : State) (k : Nat) :
    (s.drawn k).draws = s.draws + k := rfl

/-! ### Changing the store -/

@[simp] theorem State.setOp_strands (s : State) (op : StoreOp) : (s.setOp op).strands = s.strands := rfl

@[simp] theorem State.setOp_channels (s : State) (op : StoreOp) : (s.setOp op).channels = s.channels := rfl

@[simp] theorem State.setOp_rq (s : State) (op : StoreOp) : (s.setOp op).rq = s.rq := rfl

@[simp] theorem State.setOp_hli (s : State) (op : StoreOp) : (s.setOp op).hli = s.hli := rfl

@[simp] theorem State.setOp_linkStats (s : State) (op : StoreOp) : (s.setOp op).linkStats = s.linkStats := rfl

@[simp] theorem State.setOp_sup (s : State) (op : StoreOp) : (s.setOp op).sup = s.sup := rfl

@[simp] theorem State.setOp_draws (s : State) (op : StoreOp) : (s.setOp op).draws = s.draws := rfl

@[simp] theorem State.setOp_pending (s : State) (op : StoreOp) : (s.setOp op).pending = s.pending := rfl

@[simp] theorem State.setOp_store (s : State) (op : StoreOp) :
    (s.setOp op).store = { s.store with op := op } := rfl

@[simp] theorem State.modSlots_strands (s : State) (f : Slot → Slot) : (s.modSlots f).strands = s.strands := rfl

@[simp] theorem State.modSlots_channels (s : State) (f : Slot → Slot) : (s.modSlots f).channels = s.channels := rfl

@[simp] theorem State.modSlots_rq (s : State) (f : Slot → Slot) : (s.modSlots f).rq = s.rq := rfl

@[simp] theorem State.modSlots_hli (s : State) (f : Slot → Slot) : (s.modSlots f).hli = s.hli := rfl

@[simp] theorem State.modSlots_linkStats (s : State) (f : Slot → Slot) : (s.modSlots f).linkStats = s.linkStats := rfl

@[simp] theorem State.modSlots_sup (s : State) (f : Slot → Slot) : (s.modSlots f).sup = s.sup := rfl

@[simp] theorem State.modSlots_draws (s : State) (f : Slot → Slot) : (s.modSlots f).draws = s.draws := rfl

@[simp] theorem State.modSlots_pending (s : State) (f : Slot → Slot) : (s.modSlots f).pending = s.pending := rfl

@[simp] theorem State.modSlots_store (s : State) (f : Slot → Slot) :
    (s.modSlots f).store = { s.store with slots := Vector.ofFn fun i => f s.store.slots[i] } := rfl

/-! ### An answered request -/

@[simp] theorem State.answered_strands (s : State) (f : HostFrame) (body : List Byte) : (s.answered f body).strands = s.strands := rfl

@[simp] theorem State.answered_channels (s : State) (f : HostFrame) (body : List Byte) : (s.answered f body).channels = s.channels := rfl

@[simp] theorem State.answered_rq (s : State) (f : HostFrame) (body : List Byte) : (s.answered f body).rq = s.rq := rfl

@[simp] theorem State.answered_store (s : State) (f : HostFrame) (body : List Byte) : (s.answered f body).store = s.store := rfl

@[simp] theorem State.answered_linkStats (s : State) (f : HostFrame) (body : List Byte) : (s.answered f body).linkStats = s.linkStats := rfl

@[simp] theorem State.answered_sup (s : State) (f : HostFrame) (body : List Byte) : (s.answered f body).sup = s.sup := rfl

@[simp] theorem State.answered_draws (s : State) (f : HostFrame) (body : List Byte) : (s.answered f body).draws = s.draws := rfl

@[simp] theorem State.answered_pending (s : State) (f : HostFrame) (body : List Byte) : (s.answered f body).pending = s.pending := rfl

@[simp] theorem State.answered_hli (s : State) (f : HostFrame) (body : List Byte) :
    (s.answered f body).hli = 
      { s.hli with
        buffer := s.hli.buffer.drop 1, inHand := none, output := s.hli.output ++ [⟨f.kind + 0x80#8, f.tag, body⟩] } := rfl

/-! ### Taking and releasing a request -/

@[simp] theorem State.take_strands (s : State) (f : HostFrame) : (s.take f).strands = s.strands := rfl

@[simp] theorem State.take_channels (s : State) (f : HostFrame) : (s.take f).channels = s.channels := rfl

@[simp] theorem State.take_rq (s : State) (f : HostFrame) : (s.take f).rq = s.rq := rfl

@[simp] theorem State.take_store (s : State) (f : HostFrame) : (s.take f).store = s.store := rfl

@[simp] theorem State.take_linkStats (s : State) (f : HostFrame) : (s.take f).linkStats = s.linkStats := rfl

@[simp] theorem State.take_sup (s : State) (f : HostFrame) : (s.take f).sup = s.sup := rfl

@[simp] theorem State.take_draws (s : State) (f : HostFrame) : (s.take f).draws = s.draws := rfl

@[simp] theorem State.take_pending (s : State) (f : HostFrame) : (s.take f).pending = s.pending := rfl

@[simp] theorem State.take_hli (s : State) (f : HostFrame) :
    (s.take f).hli = { s.hli with buffer := s.hli.buffer.drop 1, inHand := some f } := rfl

@[simp] theorem State.release_strands (s : State) : s.release.strands = s.strands := rfl

@[simp] theorem State.release_channels (s : State) : s.release.channels = s.channels := rfl

@[simp] theorem State.release_rq (s : State) : s.release.rq = s.rq := rfl

@[simp] theorem State.release_store (s : State) : s.release.store = s.store := rfl

@[simp] theorem State.release_linkStats (s : State) : s.release.linkStats = s.linkStats := rfl

@[simp] theorem State.release_sup (s : State) : s.release.sup = s.sup := rfl

@[simp] theorem State.release_draws (s : State) : s.release.draws = s.draws := rfl

@[simp] theorem State.release_pending (s : State) : s.release.pending = s.pending := rfl

@[simp] theorem State.release_hli (s : State) : s.release.hli = { s.hli with inHand := none } := rfl

/-! ### Reading back -/

@[simp] theorem State.strand_putStrand_self (s : State) (n : StrandId) (x : Strand) : (s.putStrand n x).strand n = x := by
  simp [State.strand, State.putStrand]

theorem State.strand_putStrand_ne (s : State) {n j : StrandId} (x : Strand) (h : j ≠ n) :
    (s.putStrand n x).strand j = s.strand j := by
  have : n.val ≠ j.val := fun e => h (Fin.ext e.symm)
  simp [State.strand, State.putStrand, this]

theorem State.strand_putStrand (s : State) (n j : StrandId) (x : Strand) :
    (s.putStrand n x).strand j = if j = n then x else s.strand j := by
  split
  · subst_vars; simp
  · exact State.strand_putStrand_ne s x ‹_›

@[simp] theorem State.channel_putChannel_self (s : State) (m : ChannelId) (x : Channel) :
    (s.putChannel m x).channel m = x := by
  simp [State.channel, State.putChannel]

theorem State.channel_putChannel_ne (s : State) {m j : ChannelId} (x : Channel) (h : j ≠ m) :
    (s.putChannel m x).channel j = s.channel j := by
  have : m.val ≠ j.val := fun e => h (Fin.ext e.symm)
  simp [State.channel, State.putChannel, this]

theorem State.channel_putChannel (s : State) (m j : ChannelId) (x : Channel) :
    (s.putChannel m x).channel j = if j = m then x else s.channel j := by
  split
  · subst_vars; simp
  · exact State.channel_putChannel_ne s x ‹_›

@[simp] theorem State.slot_putSlot_self (s : State) (i : SlotId) (x : Slot) : (s.putSlot i x).slot i = x := by
  simp [State.slot, State.putSlot]

theorem State.slot_putSlot_ne (s : State) {i j : SlotId} (x : Slot) (h : j ≠ i) :
    (s.putSlot i x).slot j = s.slot j := by
  have : i.val ≠ j.val := fun e => h (Fin.ext e.symm)
  simp [State.slot, State.putSlot, this]

@[simp] theorem State.slot_modSlots (s : State) (f : Slot → Slot) (i : SlotId) :
    (s.modSlots f).slot i = f (s.slot i) := by
  simp [State.slot, State.modSlots]

@[simp] theorem State.putStrand_putStrand (s : State) (n : StrandId) (x y : Strand) :
    (s.putStrand n x).putStrand n y = s.putStrand n y := by
  simp [State.putStrand]

@[simp] theorem State.putChannel_putChannel (s : State) (m : ChannelId) (x y : Channel) :
    (s.putChannel m x).putChannel m y = s.putChannel m y := by
  simp [State.putChannel]

@[simp] theorem State.putStrand_self (s : State) (n : StrandId) : s.putStrand n (s.strand n) = s := by
  simp [State.putStrand, State.strand]

@[simp] theorem State.putChannel_self (s : State) (m : ChannelId) : s.putChannel m (s.channel m) = s := by
  simp [State.putChannel, State.channel]

/-! ### Strands, channels and slots under updates of other parts -/

@[simp] theorem State.putStrand_channel (s : State) (n : StrandId) (x : Strand) (j : ChannelId) :
    (s.putStrand n x).channel j = s.channel j := rfl

@[simp] theorem State.putStrand_slot (s : State) (n : StrandId) (x : Strand) (j : SlotId) :
    (s.putStrand n x).slot j = s.slot j := rfl

@[simp] theorem State.putChannel_strand (s : State) (m : ChannelId) (x : Channel) (j : StrandId) :
    (s.putChannel m x).strand j = s.strand j := rfl

@[simp] theorem State.putChannel_slot (s : State) (m : ChannelId) (x : Channel) (j : SlotId) :
    (s.putChannel m x).slot j = s.slot j := rfl

@[simp] theorem State.putSlot_strand (s : State) (i : SlotId) (x : Slot) (j : StrandId) :
    (s.putSlot i x).strand j = s.strand j := rfl

@[simp] theorem State.putSlot_channel (s : State) (i : SlotId) (x : Slot) (j : ChannelId) :
    (s.putSlot i x).channel j = s.channel j := rfl

@[simp] theorem State.modHli_strand (s : State) (f : Hli → Hli) (j : StrandId) :
    (s.modHli f).strand j = s.strand j := rfl

@[simp] theorem State.modHli_channel (s : State) (f : Hli → Hli) (j : ChannelId) :
    (s.modHli f).channel j = s.channel j := rfl

@[simp] theorem State.modHli_slot (s : State) (f : Hli → Hli) (j : SlotId) :
    (s.modHli f).slot j = s.slot j := rfl

@[simp] theorem State.modSup_strand (s : State) (f : Supervisor → Supervisor) (j : StrandId) :
    (s.modSup f).strand j = s.strand j := rfl

@[simp] theorem State.modSup_channel (s : State) (f : Supervisor → Supervisor) (j : ChannelId) :
    (s.modSup f).channel j = s.channel j := rfl

@[simp] theorem State.modSup_slot (s : State) (f : Supervisor → Supervisor) (j : SlotId) :
    (s.modSup f).slot j = s.slot j := rfl

@[simp] theorem State.raiseLink_strand (s : State) (c : LinkCounter) (j : StrandId) :
    (s.raiseLink c).strand j = s.strand j := rfl

@[simp] theorem State.raiseLink_channel (s : State) (c : LinkCounter) (j : ChannelId) :
    (s.raiseLink c).channel j = s.channel j := rfl

@[simp] theorem State.raiseLink_slot (s : State) (c : LinkCounter) (j : SlotId) :
    (s.raiseLink c).slot j = s.slot j := rfl

@[simp] theorem State.drawn_strand (s : State) (k : Nat) (j : StrandId) :
    (s.drawn k).strand j = s.strand j := rfl

@[simp] theorem State.drawn_channel (s : State) (k : Nat) (j : ChannelId) :
    (s.drawn k).channel j = s.channel j := rfl

@[simp] theorem State.drawn_slot (s : State) (k : Nat) (j : SlotId) :
    (s.drawn k).slot j = s.slot j := rfl

@[simp] theorem State.setOp_strand (s : State) (op : StoreOp) (j : StrandId) :
    (s.setOp op).strand j = s.strand j := rfl

@[simp] theorem State.setOp_channel (s : State) (op : StoreOp) (j : ChannelId) :
    (s.setOp op).channel j = s.channel j := rfl

@[simp] theorem State.setOp_slot (s : State) (op : StoreOp) (j : SlotId) :
    (s.setOp op).slot j = s.slot j := rfl

@[simp] theorem State.modSlots_strand (s : State) (f : Slot → Slot) (j : StrandId) :
    (s.modSlots f).strand j = s.strand j := rfl

@[simp] theorem State.modSlots_channel (s : State) (f : Slot → Slot) (j : ChannelId) :
    (s.modSlots f).channel j = s.channel j := rfl

@[simp] theorem State.answered_strand (s : State) (f : HostFrame) (body : List Byte) (j : StrandId) :
    (s.answered f body).strand j = s.strand j := rfl

@[simp] theorem State.answered_channel (s : State) (f : HostFrame) (body : List Byte) (j : ChannelId) :
    (s.answered f body).channel j = s.channel j := rfl

@[simp] theorem State.answered_slot (s : State) (f : HostFrame) (body : List Byte) (j : SlotId) :
    (s.answered f body).slot j = s.slot j := rfl

@[simp] theorem State.take_strand (s : State) (f : HostFrame) (j : StrandId) :
    (s.take f).strand j = s.strand j := rfl

@[simp] theorem State.take_channel (s : State) (f : HostFrame) (j : ChannelId) :
    (s.take f).channel j = s.channel j := rfl

@[simp] theorem State.take_slot (s : State) (f : HostFrame) (j : SlotId) :
    (s.take f).slot j = s.slot j := rfl

@[simp] theorem State.release_strand (s : State) (j : StrandId) : s.release.strand j = s.strand j := rfl

@[simp] theorem State.release_channel (s : State) (j : ChannelId) : s.release.channel j = s.channel j := rfl

@[simp] theorem State.release_slot (s : State) (j : SlotId) : s.release.slot j = s.slot j := rfl

end Sys2Proof.Machine
end

