-- ==== Sys2Proof/Laws/Ops.lean ====
section
/-! SUPPORT. What the shared operations of Ops can do: notices, counters, changes of one strand or one channel, the
order of channels, and merging. -/

namespace Sys2Proof.Machine

/-! ### Changes of a part, as replacements -/

theorem State.modStrand_eq (s : State) (n : StrandId) (f : Strand → Strand) :
    s.modStrand n f = s.putStrand n (f (s.strand n)) := rfl

theorem State.modChannel_eq (s : State) (m : ChannelId) (f : Channel → Channel) :
    s.modChannel m f = s.putChannel m (f (s.channel m)) := rfl

theorem State.modLp_eq (s : State) (m : ChannelId) (f : LineProcessor → LineProcessor) :
    s.modLp m f = s.putChannel m { s.channel m with lp := f (s.channel m).lp } := rfl

theorem State.modRx_eq (s : State) (m : ChannelId) (f : Receiver → Receiver) :
    s.modRx m f = s.putChannel m { s.channel m with rx := f (s.channel m).rx } := rfl

theorem State.modTt_eq (s : State) (m : ChannelId) (f : TrackTable → TrackTable) :
    s.modTt m f = s.putChannel m { s.channel m with tt := f (s.channel m).tt } := rfl

theorem State.raiseChannel_eq (s : State) (m : ChannelId) (c : ChannelCounter) (k : Nat) :
    s.raiseChannel m c k =
      s.putChannel m
        { s.channel m with
          stats := (s.channel m).stats.set (channelIndex c) (s.channelCount m c + BitVec.ofNat 32 k) } := rfl

theorem State.raiseStrand_eq (s : State) (n : StrandId) (c : StrandCounter) (k : Nat) :
    s.raiseStrand n c k =
      s.putStrand n
        { s.strand n with
          stats := (s.strand n).stats.set (strandIndex c) (s.strandCount n c + BitVec.ofNat 32 k) } := rfl

theorem channelIndex_injective (a b : ChannelCounter) (h : channelIndex a = channelIndex b) : a = b := by
  revert h; cases a <;> cases b <;> decide

theorem strandIndex_injective (a b : StrandCounter) (h : strandIndex a = strandIndex b) : a = b := by
  revert h; cases a <;> cases b <;> decide

/-- Raising a counter of a channel raises that counter by the number given and no other. -/
theorem State.channelCount_raiseChannel (s : State) (m : ChannelId) (c d : ChannelCounter) (k : Nat) :
    (s.raiseChannel m c k).channelCount m d = s.channelCount m d + if d = c then BitVec.ofNat 32 k else 0 := by
  rw [State.raiseChannel_eq]
  unfold State.channelCount
  rw [State.channel_putChannel_self]
  by_cases h : d = c
  · subst h; simp
  · have : (channelIndex c).val ≠ (channelIndex d).val := fun e => h (channelIndex_injective _ _ (Fin.ext e).symm)
    simp [this, h]

/-- Raising a counter of a strand raises that counter by the number given and no other. -/
theorem State.strandCount_raiseStrand (s : State) (n : StrandId) (c d : StrandCounter) (k : Nat) :
    (s.raiseStrand n c k).strandCount n d = s.strandCount n d + if d = c then BitVec.ofNat 32 k else 0 := by
  rw [State.raiseStrand_eq]
  unfold State.strandCount
  rw [State.strand_putStrand_self]
  by_cases h : d = c
  · subst h; simp
  · have : (strandIndex c).val ≠ (strandIndex d).val := fun e => h (strandIndex_injective _ _ (Fin.ext e).symm)
    simp [this, h]

/-- What holds before, and is kept at each element of a list that is worked off, holds at its end. -/
theorem foldl_keeps {α β : Type} {P : β → Prop} {f : β → α → β} (l : List α) (s : β) (h0 : P s)
    (h : ∀ t a, a ∈ l → P t → P (f t a)) : P (l.foldl f s) := by
  induction l generalizing s with
  | nil => exact h0
  | cons a l ih =>
    exact ih (f s a) (h s a (List.mem_cons_self) h0) fun t b hb => h t b (List.mem_cons_of_mem _ hb)

/-! ### Notices -/

/-- A notice touches the output queue and the link counters alone; the queue keeps what it held, and gains at most one
frame of that kind. -/
theorem State.offer_frame (s : State) (k : NoticeKind) (body : List Byte) :
    ∃ more stats, s.offer k body = { s with hli := { s.hli with output := s.hli.output ++ more }, linkStats := stats } ∧
      (more = [] ∨ more = [noticeFrame k body] ∧ s.hli.output.length ≤ 14) := by
  unfold State.offer
  split
  · split
    · refine ⟨[noticeFrame k body], s.linkStats, rfl, .inr ⟨rfl, ?_⟩⟩
      have h : 2 ≤ outputCapacity - s.hli.output.length := ‹_›
      simp only [outputCapacity] at h; omega
    · exact ⟨[], s.linkStats.set (linkIndex .noticesLost) (s.linkStats[linkIndex .noticesLost] + 1), by
        simp [State.raiseLink], .inl rfl⟩
  · exact ⟨[], s.linkStats, by simp, .inl rfl⟩

@[simp] theorem State.offer_strands (s : State) (k : NoticeKind) (body : List Byte) :
    (s.offer k body).strands = s.strands := by obtain ⟨_, _, h, _⟩ := s.offer_frame k body; rw [h]

@[simp] theorem State.offer_channels (s : State) (k : NoticeKind) (body : List Byte) :
    (s.offer k body).channels = s.channels := by obtain ⟨_, _, h, _⟩ := s.offer_frame k body; rw [h]

@[simp] theorem State.offer_rq (s : State) (k : NoticeKind) (body : List Byte) : (s.offer k body).rq = s.rq := by
  obtain ⟨_, _, h, _⟩ := s.offer_frame k body; rw [h]

@[simp] theorem State.offer_store (s : State) (k : NoticeKind) (body : List Byte) :
    (s.offer k body).store = s.store := by obtain ⟨_, _, h, _⟩ := s.offer_frame k body; rw [h]

@[simp] theorem State.offer_sup (s : State) (k : NoticeKind) (body : List Byte) : (s.offer k body).sup = s.sup := by
  obtain ⟨_, _, h, _⟩ := s.offer_frame k body; rw [h]

@[simp] theorem State.offer_draws (s : State) (k : NoticeKind) (body : List Byte) :
    (s.offer k body).draws = s.draws := by obtain ⟨_, _, h, _⟩ := s.offer_frame k body; rw [h]

@[simp] theorem State.offer_pending (s : State) (k : NoticeKind) (body : List Byte) :
    (s.offer k body).pending = s.pending := by obtain ⟨_, _, h, _⟩ := s.offer_frame k body; rw [h]

@[simp] theorem State.offer_strand (s : State) (k : NoticeKind) (body : List Byte) (n : StrandId) :
    (s.offer k body).strand n = s.strand n := by simp [State.strand]

@[simp] theorem State.offer_channel (s : State) (k : NoticeKind) (body : List Byte) (m : ChannelId) :
    (s.offer k body).channel m = s.channel m := by simp [State.channel]

@[simp] theorem State.offer_slot (s : State) (k : NoticeKind) (body : List Byte) (i : SlotId) :
    (s.offer k body).slot i = s.slot i := by simp [State.slot]

theorem State.offer_hli (s : State) (k : NoticeKind) (body : List Byte) :
    (s.offer k body).hli = { s.hli with output := (s.offer k body).hli.output } := by
  obtain ⟨_, _, h, _⟩ := s.offer_frame k body; rw [h]

/-! ### What the link takes from the plant -/

theorem LinkGrows.of_eq {s t : State} (h : t.hli = s.hli) (h' : t.linkStats = s.linkStats) : LinkGrows s t :=
  ⟨⟨[], by simp [h]⟩, fun i _ _ => by rw [h']⟩

theorem LinkGrows.refl (s : State) : LinkGrows s s := .of_eq rfl rfl

theorem LinkGrows.trans {s t u : State} (a : LinkGrows s t) (b : LinkGrows t u) : LinkGrows s u := by
  obtain ⟨⟨xs, ax, ar, ak⟩, ac⟩ := a
  obtain ⟨⟨ys, bx, br, bk⟩, bc⟩ := b
  refine ⟨⟨xs ++ ys, by rw [bx, ax, List.append_assoc], ?_, fun g hg => ?_⟩, fun i h3 h4 => (bc i h3 h4).trans (ac i h3 h4)⟩
  · rw [ax, List.append_assoc] at br
    rcases br with rfl | br
    · simpa using ar
    · exact .inr br
  · rw [ax] at bk
    exact (List.mem_append.1 hg).elim (ak g) (bk g)

/-- A notice offered is one of the frames a link may take. -/
theorem LinkGrows.offer (s : State) (k : NoticeKind) (body : List Byte) : LinkGrows s (s.offer k body) := by
  unfold State.offer
  split
  next on =>
    split
    next free =>
      refine ⟨⟨[noticeFrame k body], rfl, .inr ?_, fun g hg => ?_⟩, fun _ _ _ => rfl⟩
      · simp only [State.freeOutput, outputCapacity] at free
        simp only [List.length_append, List.length_singleton]
        omega
      · obtain rfl := List.mem_singleton.1 hg
        exact ⟨rfl, k, rfl, on⟩
    · refine ⟨⟨[], by simp [State.raiseLink]⟩, fun i h3 _ => ?_⟩
      have : (3 : Nat) ≠ i.val := fun e => h3 (Fin.ext e.symm)
      simp [State.raiseLink, linkIndex, this]
  · exact .refl s

/-- A raised REPORT_LOST counter, whatever the rest. -/
theorem LinkGrows.raiseReportLost (s : State) : LinkGrows s (s.raiseLink .reportLost) := by
  refine ⟨⟨[], by simp [State.raiseLink]⟩, fun i _ h4 => ?_⟩
  have : (4 : Nat) ≠ i.val := fun e => h4 (Fin.ext e.symm)
  simp [State.raiseLink, linkIndex, this]

/-- A notice moves no link counter but NOTICES_LOST. -/
theorem State.offer_linkCount (s : State) (k : NoticeKind) (body : List Byte) (c : LinkCounter) (h : c ≠ .noticesLost) :
    (s.offer k body).linkCount c = s.linkCount c := by
  have : (3 : Nat) ≠ (linkIndex c).val := by revert h; cases c <;> decide
  unfold State.offer
  split
  · split
    · rfl
    · simp [State.linkCount, State.raiseLink, linkIndex] at this ⊢
      simp [this]
  · rfl

@[simp] theorem State.offers_nil (s : State) : s.offers [] = s := rfl

@[simp] theorem State.offers_cons (s : State) (x : NoticeKind × List Byte) (rest : List (NoticeKind × List Byte)) :
    s.offers (x :: rest) = (s.offer x.1 x.2).offers rest := rfl

/-- Notices offered one behind the other are frames a link may take. -/
theorem LinkGrows.offers (s : State) (notices : List (NoticeKind × List Byte)) : LinkGrows s (s.offers notices) :=
  foldl_keeps (P := LinkGrows s) notices s (.refl s) fun t x _ ht => ht.trans (.offer t x.1 x.2)

/-- A notice offered now is offered among what the link takes until later. -/
theorem OfferedAmong.intro {s u t : State} {k : NoticeKind} {body : List Byte} (before : LinkGrows s u)
    (after : LinkGrows (u.offer k body) t) : OfferedAmong k body s t := ⟨u, before, after⟩

/-- What was offered in a part of an event was offered in the whole of it. -/
theorem OfferedAmong.within {s s' t t' : State} {k : NoticeKind} {body : List Byte} (h : OfferedAmong k body s' t')
    (before : LinkGrows s s') (after : LinkGrows t' t) : OfferedAmong k body s t := by
  obtain ⟨u, a, b⟩ := h
  exact ⟨u, before.trans a, b.trans after⟩

/-! ### Running -/

theorem State.running_iff (s : State) : s.running = true ↔ s.Runs := by
  unfold State.running State.Runs
  cases s.sup.inRestart <;> cases s.sup.clock <;> simp

theorem whileRunning_of_runs {s : State} (h : s.Runs) (f : State → State) : whileRunning s f = f s := by
  simp [whileRunning, (State.running_iff s).2 h]

theorem whileRunning_of_not {s : State} (h : ¬s.Runs) (f : State → State) : whileRunning s f = s := by
  have : s.running = false := by
    cases e : s.running
    · rfl
    · exact absurd ((State.running_iff s).1 e) h
  simp [whileRunning, this]

/-! ### The order of channels -/

theorem mem_allChannels (m : ChannelId) : m ∈ allChannels := by revert m; decide

theorem mem_allStrands (n : StrandId) : n ∈ allStrands := by revert n; decide

theorem mem_allSlots (i : SlotId) : i ∈ allSlots := by revert i; decide

theorem State.mem_channelsOf (s : State) (n : StrandId) (m : ChannelId) :
    m ∈ s.channelsOf n ↔ (s.channel m).cfg.enabled = true ∧ (s.channel m).cfg.strand = n := by
  simp [State.channelsOf, mem_allChannels]

theorem insertByRank_perm (rank : ChannelId → Nat) (m : ChannelId) (l : List ChannelId) :
    (insertByRank rank m l).Perm (m :: l) := by
  induction l with
  | nil => exact .refl _
  | cons x xs ih =>
    unfold insertByRank
    split
    · exact .refl _
    · exact (ih.cons x).trans (.swap m x xs)

theorem sortByRank_perm (rank : ChannelId → Nat) (l : List ChannelId) : (sortByRank rank l).Perm l := by
  induction l with
  | nil => exact .refl _
  | cons x xs ih => exact (insertByRank_perm rank x _).trans (ih.cons x)

/-- The open order is some order of the enabled channels of the strand, each once. -/
theorem State.openOrder_perm (s : State) (n : StrandId) : (s.openOrder n).Perm (s.channelsOf n) :=
  sortByRank_perm _ _

theorem State.channelsOf_nodup (s : State) (n : StrandId) : (s.channelsOf n).Nodup :=
  List.Nodup.filter _ (by decide)

theorem State.openOrder_nodup (s : State) (n : StrandId) : (s.openOrder n).Nodup :=
  (s.openOrder_perm n).nodup_iff.2 (s.channelsOf_nodup n)

theorem State.mem_openOrder (s : State) (n : StrandId) (m : ChannelId) :
    m ∈ s.openOrder n ↔ (s.channel m).cfg.enabled = true ∧ (s.channel m).cfg.strand = n := by
  rw [(s.openOrder_perm n).mem_iff, s.mem_channelsOf]

/-- Merging loses and adds nothing. -/
theorem mergeOpen_perm {α : Type} (pick : Nat → Bool) (fuel i : Nat) (xs ys : List α) :
    (mergeOpen pick fuel i xs ys).1.Perm (xs ++ ys) := by
  induction fuel generalizing i xs ys with
  | zero => exact .refl _
  | succ fuel ih =>
    cases xs with
    | nil => exact .refl _
    | cons x xs =>
      cases ys with
      | nil => simp [mergeOpen]
      | cons y ys =>
        unfold mergeOpen
        split
        · exact (ih (i + 1) xs (y :: ys)).cons x
        · exact ((ih (i + 1) (x :: xs) ys).cons y).trans List.perm_middle.symm

/-! ### Recipes in force -/

theorem entryAt_mem {h : List HistoryEntry} {c : Nat} {e : HistoryEntry} (he : entryAt h c = some e) :
    e ∈ h ∧ e.coord ≤ c := by
  have := List.mem_of_getLast? he
  simpa using this

end Sys2Proof.Machine
end

