-- ==== Sys2Proof/Laws/Lines.lean ====
section
/-! SUPPORT. What the operations on a line of one channel leave alone (03 to 06): each touches its channel, the billet
flags, pending records and counters of the channel's strand, and the notices the link takes, and nothing else. -/

namespace Sys2Proof.Machine

theorem LineKept.refl (m : ChannelId) (s : State) : LineKept m s s := by
  simp [LineKept, LinkGrows.refl]

theorem LineKept.trans {m : ChannelId} {s t u : State} (a : LineKept m s t) (b : LineKept m t u) : LineKept m s u := by
  obtain ⟨a1, a2, a3, a4, a5, a6, a7, a8, a9, a10⟩ := a
  obtain ⟨b1, b2, b3, b4, b5, b6, b7, b8, b9, b10⟩ := b
  refine ⟨fun j h => (b1 j h).trans (a1 j h), b2.trans a2, fun n h => ?_, fun n h => ?_, b5.trans a5, b6.trans a6,
    b7.trans a7, b8.trans a8, a9.trans b9, b10.trans a10⟩
  · exact (b3 n (a2 ▸ h)).trans (a3 n h)
  · rw [b4 n (a2 ▸ h), a4 n h]

/-- A replacement of the channel that keeps its configuration. -/
theorem LineKept.putChannel (m : ChannelId) (s : State) (c : Channel) (h : c.cfg = (s.channel m).cfg) :
    LineKept m s (s.putChannel m c) := by
  refine ⟨fun j hj => State.channel_putChannel_ne s c hj, by simp [h], ?_, ?_, rfl, rfl, rfl, rfl, .of_eq rfl rfl,
    rfl⟩ <;> simp

/-- A change of the billet, the records or the counters of the channel's strand. -/
theorem LineKept.putStrand (m : ChannelId) (s : State) (x : Strand)
    (h : x = { s.strand (s.channel m).cfg.strand with billet := x.billet, defects := x.defects, stats := x.stats }) :
    LineKept m s (s.putStrand (s.channel m).cfg.strand x) := by
  refine ⟨by simp, by simp, fun n hn => State.strand_putStrand_ne s x hn, fun n hn => ?_, rfl, rfl, rfl, rfl,
    .of_eq rfl rfl, rfl⟩
  subst hn
  simpa using h

theorem LineKept.offer (m : ChannelId) (s : State) (k : NoticeKind) (body : List Byte) :
    LineKept m s (s.offer k body) :=
  ⟨by simp, by simp, by simp, by simp, by simp, by simp, by simp, by simp, .offer s k body,
    s.offer_linkCount k body _ (by decide)⟩

theorem LineKept.drawn (m : ChannelId) (s : State) (k : Nat) : LineKept m s (s.drawn k) :=
  ⟨by simp, by simp, by simp, by simp, rfl, rfl, rfl, rfl, .of_eq rfl rfl, rfl⟩

theorem LineKept.raiseChannel (m : ChannelId) (s : State) (c : ChannelCounter) (k : Nat) :
    LineKept m s (s.raiseChannel m c k) := .putChannel m s _ rfl

theorem LineKept.modLp (m : ChannelId) (s : State) (f : LineProcessor → LineProcessor) : LineKept m s (s.modLp m f) :=
  .putChannel m s _ rfl

theorem LineKept.modRx (m : ChannelId) (s : State) (f : Receiver → Receiver) : LineKept m s (s.modRx m f) :=
  .putChannel m s _ rfl

theorem LineKept.modTt (m : ChannelId) (s : State) (f : TrackTable → TrackTable) : LineKept m s (s.modTt m f) :=
  .putChannel m s _ rfl

theorem LineKept.reportFace (m : ChannelId) (s : State) (g : FaceFlags → FaceFlags) :
    LineKept m s (s.reportFace m g) := .putStrand m s _ rfl

theorem LineKept.reportWhen (m : ChannelId) (s : State) (b : Bool) (g : FaceFlags → FaceFlags) :
    LineKept m s (s.reportWhen m b g) := by
  unfold State.reportWhen
  split
  · exact .reportFace m s g
  · exact .refl m s

theorem LineKept.receive (m : ChannelId) (s : State) (n : StrandId) (hn : n = (s.channel m).cfg.strand)
    (r : DefectRecord) : LineKept m s (s.receive n r) := by
  subst hn
  unfold State.receive
  split
  · exact .putStrand m s _ rfl
  · rw [State.raiseStrand_eq, State.modBillet, State.modStrand_eq, State.putStrand_putStrand]
    exact .putStrand m s _ (by simp)

theorem LineKept.receiveAll (m : ChannelId) (s : State) (n : StrandId) (hn : n = (s.channel m).cfg.strand)
    (rs : List DefectRecord) : LineKept m s (s.receiveAll n rs) := by
  induction rs generalizing s with
  | nil => exact .refl m s
  | cons r rs ih =>
    have h := LineKept.receive m s n hn r
    exact h.trans (ih (s.receive n r) (by rw [h.2.1]; exact hn))

theorem LineKept.countEmission (m : ChannelId) (s : State) (k : Nat) (rs : List DefectRecord) :
    LineKept m s (s.countEmission m k rs) := (LineKept.raiseChannel m s _ _).trans (.raiseChannel m _ _ _)

theorem LineKept.emit (m : ChannelId) (s : State) (k : Nat) (rs : List DefectRecord) :
    LineKept m s (s.emit m k rs) := by
  have h := LineKept.countEmission m s k rs
  exact h.trans (.receiveAll m _ _ (by rw [h.2.1]) _)

theorem LineKept.flush (m : ChannelId) (s : State) : LineKept m s (s.flush m) :=
  (LineKept.modTt m s freeTable).trans (.emit m _ _ _)

theorem LineKept.lockNotice (m : ChannelId) (s : State) (left hard : Bool) (cause : LockCause) (coord : Nat) :
    LineKept m s (s.lockNotice m left hard cause coord) := .offer m s _ _

theorem LineKept.enterHardLock (m : ChannelId) (s : State) (cause : HardCause) (coord : Nat) :
    LineKept m s (s.enterHardLock m cause coord) :=
  ((((LineKept.flush m s).trans (.modLp m _ _)).trans (.raiseChannel m _ _ _)).trans (.reportFace m _ _)).trans
    (.lockNotice m _ _ _ _ _)

theorem LineKept.headFault (m : ChannelId) (s : State) (coord : Nat) : LineKept m s (s.headFault m coord) := by
  unfold State.headFault
  split
  iterate 3 exact .enterHardLock m s _ _
  all_goals exact .refl m s

theorem LineKept.finishLine (m : ChannelId) (s : State) (line : Nat) (e : EndOfLine) :
    LineKept m s (s.finishLine m line e) := by
  cases e with
  | stay => exact .refl m s
  | enterSoft left => exact ((LineKept.modLp m s _).trans (.raiseChannel m _ _ _)).trans (.lockNotice m _ _ _ _ _)
  | leaveSoft left => exact (LineKept.modLp m s _).trans (.lockNotice m _ _ _ _ _)
  | enterHard cause => exact .enterHardLock m s cause line

theorem LineKept.holdTracks (m : ChannelId) (s : State) (line : Nat) (r : Recipe) :
    LineKept m s (s.holdTracks m line r) := .modTt m s _

theorem LineKept.countRuns (m : ChannelId) (s : State) (runs : LineRuns) : LineKept m s (s.countRuns m runs) :=
  ((((LineKept.raiseChannel m s _ _).trans (.raiseChannel m _ _ _)).trans (.raiseChannel m _ _ _)).trans
    (.raiseChannel m _ _ _)).trans (.raiseChannel m _ _ _)

theorem LineKept.countAssociation (m : ChannelId) (s : State) (a : Association) :
    LineKept m s (s.countAssociation m a) :=
  ((LineKept.raiseChannel m s _ _).trans (.raiseChannel m _ _ _)).trans (.raiseChannel m _ _ _)

theorem LineKept.receiveLine (m : ChannelId) (s : State) (n : StrandId) (hn : n = (s.channel m).cfg.strand)
    (a b : List DefectRecord) : LineKept m s (s.receiveLine n a b) :=
  (LineKept.drawn m s _).trans (.receiveAll m _ n (by simpa using hn) _)

theorem LineKept.then_receiveLine {m : ChannelId} {s t : State} (h : LineKept m s t) (a b : List DefectRecord) :
    LineKept m s (t.receiveLine (s.channel m).cfg.strand a b) :=
  h.trans (.receiveLine m t _ (by rw [h.2.1]) a b)

theorem LineKept.processActive (m : ChannelId) (s : State) (line : Nat) (r : Recipe) (samples : List Sample) :
    LineKept m s (s.processActive m line r samples) := by
  unfold State.processActive
  refine .then_receiveLine ?_ _ _
  exact ((((((LineKept.modLp m s _).trans (.modTt m _ _)).trans (.countRuns m _ _)).trans
    (.countAssociation m _ _)).trans (.reportWhen m _ _ _)).trans (.reportWhen m _ _ _)).trans (.countEmission m _ _ _)

theorem LineKept.processLine (m : ChannelId) (s : State) (line : Nat) (r : Recipe) (clear : Bool) (out : LineOutcome) :
    LineKept m s (s.processLine m line r clear out) := by
  unfold State.processLine
  split
  · split
    · exact .processActive m s line r _
    · exact .holdTracks m s line r
  · split
    · exact (LineKept.modLp m s _).trans (.holdTracks m _ line r)
    · exact .holdTracks m s line r
  · exact .holdTracks m s line r

/-- The handling of a settled line. -/
theorem LineKept.handleLine (m : ChannelId) (s : State) (x : Settlement) : LineKept m s (s.handleLine m x) := by
  unfold State.handleLine
  dsimp only
  split
  · exact .refl m s
  · exact .refl m s
  · exact .refl m s
  · exact (((LineKept.modLp m s _).trans (.raiseChannel m _ _ _)).trans (.processLine m _ _ _ _ _)).trans
      (.finishLine m _ _ _)

theorem LineKept.endAwait (m : ChannelId) (s : State) (last : Option Byte) : LineKept m s (s.endAwait m last) :=
  .modRx m s _

/-- An await that ends with a settlement. -/
theorem LineKept.settle (m : ChannelId) (s : State) (last : Byte) (x : Settlement) :
    LineKept m s (s.settle m last x) :=
  (LineKept.endAwait m s _).trans (.handleLine m _ x)

theorem LineKept.settleMissed (m : ChannelId) (s : State) : LineKept m s (s.settleMissed m) := by
  unfold State.settleMissed
  split
  · exact .refl m s
  · exact (LineKept.raiseChannel m s _ _).trans (.settle m _ _ _)

/-- A frame counted under a discard cause. -/
theorem LineKept.discard (m : ChannelId) (s : State) (cause : DiscardCause) : LineKept m s (s.discard m cause) := by
  unfold State.discard
  dsimp only
  split
  · exact .raiseChannel m s _ _
  · exact (LineKept.raiseChannel m s _ _).trans (.settle m _ _ _)

theorem LineKept.abandon (m : ChannelId) (s : State) : LineKept m s (s.abandon m) := by
  unfold State.abandon
  split
  · exact .refl m s
  · exact .endAwait m s _

/-- A restart of the channel at a grade change. -/
theorem LineKept.restartChannel (m : ChannelId) (s : State) (line : Nat) : LineKept m s (s.restartChannel m line) := by
  unfold State.restartChannel
  have h := (LineKept.flush m s).trans (.modLp m _ restartedLp)
  split
  iterate 3 exact .refl m s
  all_goals
    dsimp only
    split
    · exact h.trans (.enterHardLock m _ _ _)
    · split
      · exact h.trans (.lockNotice m _ _ _ _ _)
      · exact h

/-- One channel's part of a line trigger. -/
theorem LineKept.takeTrigger (m : ChannelId) (s : State) (k line : Nat) (restart : Bool) :
    LineKept m s (s.takeTrigger k line restart m) := by
  unfold State.takeTrigger
  dsimp only
  refine ((LineKept.settleMissed m s).trans ?_).trans (.modRx m _ _)
  split
  · exact .restartChannel m _ line
  · exact .refl m _

/-- The settlement of a line that stays away carries its index and coordinate (R30, R31, R34). -/
theorem State.settleMissed_awaiting {s : State} {m : ChannelId} {k line : Nat} {expected : Byte}
    (h : (s.channel m).rx.await = .awaiting k line expected) :
    s.settleMissed m = (s.raiseChannel m .missed).settle m expected ⟨k, line, .missed⟩ := by
  simp [State.settleMissed, h]

/-- The settlement of a discarded line carries its index, its coordinate and the cause (R25, R32, R34). -/
theorem State.discard_awaiting {s : State} {m : ChannelId} {k line : Nat} {expected : Byte} (cause : DiscardCause)
    (h : (s.channel m).rx.await = .awaiting k line expected) :
    s.discard m cause = (s.raiseChannel m cause.counter).settle m expected ⟨k, line, .discarded cause⟩ := by
  have hr : ((s.raiseChannel m cause.counter).channel m).rx.await = .awaiting k line expected := by
    simpa [State.raiseChannel, State.modChannel_eq] using h
  simp [State.discard, hr]

/-- In QUIET a discard cause is only counted (R25). -/
theorem State.discard_quiet {s : State} {m : ChannelId} (cause : DiscardCause) (h : (s.channel m).rx.await = .quiet) :
    s.discard m cause = s.raiseChannel m cause.counter := by
  have hr : ((s.raiseChannel m cause.counter).channel m).rx.await = .quiet := by
    simpa [State.raiseChannel, State.modChannel_eq] using h
  simp [State.discard, hr]

/-- Every class of a scan frame. -/
theorem LineKept.classify (m : ChannelId) (s : State) (f : ScanFrame) : LineKept m s (s.classify m f) := by
  unfold State.classify
  dsimp only
  split
  · exact .raiseChannel m s _ _
  split
  · exact .raiseChannel m s _ _
  split
  · exact (LineKept.discard m s _).trans (.headFault m _ _)
  split
  · exact .discard m s _
  unfold State.testTag
  dsimp only
  split
  · split
    · exact ((LineKept.raiseChannel m s _ _).trans (.raiseChannel m _ _ _)).trans (.settle m _ _ _)
    · split
      · exact .raiseChannel m s _ _
      · exact (((LineKept.raiseChannel m s _ _).trans (.settle m _ _ _)).trans (.modRx m _ _)).trans (.offer m _ _ _)
  · split
    · exact .raiseChannel m s _ _
    · exact .raiseChannel m s _ _

theorem LineKept.framingFailure (m : ChannelId) (s : State) : LineKept m s (s.framingFailure m) := by
  unfold State.framingFailure
  split
  · exact .discard m s _
  · exact .raiseChannel m s _ _

end Sys2Proof.Machine
end

