-- ==== Sys2Proof/Laws/Strands.lean ====
section
/-! SUPPORT. What the operations on one strand leave alone (01, 07, 08): the other strands, the channels that are not
enabled on it, every channel's configuration, the store, the supervisor, the queue of commands, and the host link but
for the notices it takes. -/

namespace Sys2Proof.Machine

/-- `OthersKept`, and no channel's configuration changed. -/
def StrandKept (n : StrandId) (s t : State) : Prop :=
  OthersKept n s t ∧ ∀ m, (t.channel m).cfg = (s.channel m).cfg

theorem StrandKept.refl (n : StrandId) (s : State) : StrandKept n s s := by
  simp [StrandKept, OthersKept, LinkGrows.refl]

theorem StrandKept.trans {n : StrandId} {s t u : State} (a : StrandKept n s t) (b : StrandKept n t u) :
    StrandKept n s u := by
  obtain ⟨⟨a1, a2, a3, a4, a5, a6⟩, a7⟩ := a
  obtain ⟨⟨b1, b2, b3, b4, b5, b6⟩, b7⟩ := b
  exact ⟨⟨fun j h => (b1 j h).trans (a1 j h), fun m h => (b2 m (by rw [a7 m]; exact h)).trans (a2 m h), b3.trans a3,
    b4.trans a4, b5.trans a5, a6.trans b6⟩, fun m => (b7 m).trans (a7 m)⟩

theorem StrandKept.fold {α : Type} {n : StrandId} {s t : State} (h : StrandKept n s t) (l : List α)
    {f : State → α → State} (hf : ∀ u a, StrandKept n u (f u a)) : StrandKept n s (l.foldl f t) :=
  foldl_keeps (P := StrandKept n s) l t h fun u a _ hu => hu.trans (hf u a)

theorem StrandKept.putStrand (n : StrandId) (s : State) (x : Strand) : StrandKept n s (s.putStrand n x) := by
  refine ⟨⟨fun j h => State.strand_putStrand_ne s x h, ?_, rfl, rfl, rfl, .of_eq rfl rfl⟩, ?_⟩ <;> simp

theorem StrandKept.modStrand (n : StrandId) (s : State) (f : Strand → Strand) : StrandKept n s (s.modStrand n f) :=
  .putStrand n s _

theorem StrandKept.raiseStrand (n : StrandId) (s : State) (c : StrandCounter) (k : Nat) :
    StrandKept n s (s.raiseStrand n c k) := .putStrand n s _

theorem StrandKept.modBillet (n : StrandId) (s : State) (f : OpenBillet → OpenBillet) :
    StrandKept n s (s.modBillet n f) := .putStrand n s _

theorem StrandKept.offer (n : StrandId) (s : State) (k : NoticeKind) (body : List Byte) :
    StrandKept n s (s.offer k body) := 
  ⟨⟨by simp, by simp, by simp, by simp, by simp, .offer s k body⟩, by simp⟩

theorem StrandKept.drawn (n : StrandId) (s : State) (k : Nat) : StrandKept n s (s.drawn k) :=
  ⟨⟨by simp, by simp, rfl, rfl, rfl, .of_eq rfl rfl⟩, by simp⟩

/-- A change of the report queue alone. -/
theorem StrandKept.withRq (n : StrandId) (s : State) (rq : List BilletReport) : StrandKept n s { s with rq := rq } :=
  ⟨⟨fun _ _ => rfl, fun _ _ => rfl, rfl, rfl, rfl, .of_eq rfl rfl⟩, fun _ => rfl⟩

theorem StrandKept.raiseReportLost (n : StrandId) (s : State) : StrandKept n s (s.raiseLink .reportLost) :=
  ⟨⟨fun _ _ => rfl, fun _ _ => rfl, rfl, rfl, rfl, .raiseReportLost s⟩, fun _ => rfl⟩

/-- What a line of an enabled channel of the strand does, the strand's other channels see as little of as the other
strands do. -/
theorem StrandKept.of_line {n : StrandId} {m : ChannelId} {s t : State} (h : LineKept m s t)
    (on : (s.channel m).cfg.enabled = true) (hn : (s.channel m).cfg.strand = n) : StrandKept n s t := by
  obtain ⟨h1, h2, h3, h4, h5, h6, h7, h8, h9, h10⟩ := h
  subst hn
  refine ⟨⟨fun j hj => h3 j hj, fun j hj => h1 j ?_, h6, h7, h8, h9⟩, fun j => ?_⟩
  · rintro rfl; exact hj ⟨on, rfl⟩
  · by_cases e : j = m
    · subst e; exact h2
    · rw [h1 j e]

/-- An event handed to channels enabled on the strand, each of which keeps the rest. -/
theorem StrandKept.foldl {n : StrandId} (f : State → ChannelId → State) (ms : List ChannelId) (s : State)
    (on : ∀ m ∈ ms, (s.channel m).cfg.enabled = true ∧ (s.channel m).cfg.strand = n)
    (h : ∀ t m, LineKept m t (f t m)) : StrandKept n s (ms.foldl f s) := by
  refine foldl_keeps (P := StrandKept n s) ms s (.refl n s) fun t m hm ht => ht.trans ?_
  have hc := ht.2 m
  exact .of_line (h t m) (by rw [hc]; exact (on m hm).1) (by rw [hc]; exact (on m hm).2)

theorem StrandKept.channels {n : StrandId} (f : State → ChannelId → State) (s : State)
    (h : ∀ t m, LineKept m t (f t m)) : StrandKept n s ((s.channelsOf n).foldl f s) :=
  .foldl f _ s (fun m hm => (s.mem_channelsOf n m).1 hm) h

theorem StrandKept.eachChannel {n : StrandId} (f : ChannelId → State → State) (s : State)
    (h : ∀ t m, LineKept m t (f m t)) : StrandKept n s (s.eachChannel n f) :=
  (StrandKept.drawn n s 1).trans
    (.foldl (fun t m => f m t) _ _ (fun m hm => by simpa using (s.mem_openOrder n m).1 hm) h)

theorem StrandKept.openBillet (n : StrandId) (s : State) (head : Nat) (first : Bool) :
    StrandKept n s (s.openBillet n head first) := .modStrand n s _

theorem StrandKept.pushReport (n : StrandId) (s : State) (rep : BilletReport) : StrandKept n s (s.pushReport rep) := by
  have add : ∀ (t : State) (rep : BilletReport), StrandKept n t (t.addReport rep) := fun t rep =>
    (StrandKept.withRq n t _).trans (.offer n _ _ _)
  unfold State.pushReport
  split
  · exact add s rep
  · refine StrandKept.trans ?_ (add _ _)
    unfold State.discardOldest
    split
    · exact .refl n s
    · exact ((StrandKept.withRq n s _).trans (.raiseReportLost n _)).trans (.offer n _ _ _)

theorem LineKept.takeCoverage (m : ChannelId) (s : State) (pitch tail : Nat) :
    LineKept m s (s.takeCoverage pitch tail m) := .modLp m s _

theorem StrandKept.countClose (n : StrandId) (s : State) (g : Grade) (closing : List DefectRecord) :
    StrandKept n s (s.countClose n g closing) := by
  refine ((StrandKept.raiseStrand n s .billetsClosed 1).trans (.raiseStrand n _ (gradeCounter g) 1)).trans ?_
  exact foldl_keeps (P := StrandKept n _) _ _ (.refl n _) fun t r _ ht => ht.trans (.raiseStrand n _ _ _)

theorem StrandKept.closeBillet (n : StrandId) (s : State) (tail : Nat) (stopped : Bool) (closing : List DefectRecord) :
    StrandKept n s (s.closeBillet n tail stopped closing) := by
  unfold State.closeBillet
  dsimp only
  split
  · exact .refl n s
  · refine StrandKept.trans ?_ (.pushReport n _ _)
    refine StrandKept.trans ?_ (.countClose n _ _ _)
    refine StrandKept.trans ?_ (.modStrand n _ _)
    exact .channels _ s fun t m => .takeCoverage m t _ _

theorem LineKept.channelToIdle (m : ChannelId) (s : State) : LineKept m s (s.channelToIdle m) := by
  unfold State.channelToIdle
  dsimp only
  split
  iterate 2 exact (LineKept.modLp m s _).trans (.lockNotice m _ _ _ _ _)
  all_goals exact .modLp m s _

theorem StrandKept.strandToIdle (n : StrandId) (s : State) (reason : StrandReason) :
    StrandKept n s (s.strandToIdle n reason) := (StrandKept.modStrand n s _).trans (.offer n _ _ _)

/-- A stop of the strand. -/
theorem StrandKept.stopStrand (n : StrandId) (s : State) (reason : StrandReason) :
    StrandKept n s (s.stopStrand n reason) := by
  unfold State.stopStrand
  dsimp only
  refine StrandKept.trans ?_ (.strandToIdle n _ reason)
  refine StrandKept.trans ?_ (.eachChannel _ _ fun t m => .channelToIdle m t)
  refine StrandKept.trans ?_ (.closeBillet n _ _ _ _)
  exact (StrandKept.channels _ s fun t m => .abandon m t).trans (.eachChannel _ _ fun t m => .flush m t)

theorem LineKept.splitTracks (m : ChannelId) (s : State) (k : Nat) : LineKept m s (s.splitTracks m k) :=
  (LineKept.modTt m s _).trans (.countEmission m _ _ _)

theorem StrandKept.closeAtCut (n : StrandId) (s : State) (k : Nat) : StrandKept n s (s.closeAtCut n k) := by
  unfold State.closeAtCut
  dsimp only
  refine StrandKept.trans ?_ (.modStrand n _ _)
  refine StrandKept.trans ?_ (.closeBillet n _ _ _ _)
  refine StrandKept.trans ?_ (.modStrand n _ _)
  refine StrandKept.trans ?_ (.channels _ _ fun t m => .splitTracks m t k)
  exact (StrandKept.raiseStrand n s _ _).trans (.modStrand n _ _)

theorem StrandKept.endFinishing (n : StrandId) (s : State) : StrandKept n s (s.endFinishing n) := by
  unfold State.endFinishing
  dsimp only
  refine StrandKept.trans ?_ (.strandToIdle n _ _)
  refine StrandKept.trans ?_ (.eachChannel _ _ fun t m => .channelToIdle m t)
  refine StrandKept.trans ?_ (.channels _ _ fun t m => (LineKept.abandon m t).trans (.modTt m _ _))
  exact (StrandKept.raiseStrand n s _ _).trans (.modStrand n _ _)

/-- An accepted cut. -/
theorem StrandKept.acceptCut (n : StrandId) (s : State) (k : Nat) : StrandKept n s (s.acceptCut n k) := by
  unfold State.acceptCut
  dsimp only
  split
  · exact (StrandKept.closeAtCut n s k).trans (.endFinishing n _)
  all_goals exact (StrandKept.closeAtCut n s k).trans (.openBillet n _ _ _)

theorem StrandKept.cut (n : StrandId) (s : State) : StrandKept n s (s.cut n) := by
  unfold State.cut
  split
  iterate 3 exact .raiseStrand n s _ _
  exact .acceptCut n s _

theorem StrandKept.applySchedule (n : StrandId) (s : State) (line : Nat) : StrandKept n s (s.applySchedule n line) := by
  unfold State.applySchedule
  dsimp only
  refine StrandKept.fold (.modStrand n s _) _ fun t e => ?_
  unfold State.applyEntry
  dsimp only
  split
  · exact (StrandKept.modStrand n t _).trans (.offer n _ _ _)
  · exact .offer n t _ _
  · exact .offer n t _ _

/-- A line trigger. -/
theorem StrandKept.lineTrigger (n : StrandId) (s : State) : StrandKept n s (s.lineTrigger n) := by
  unfold State.lineTrigger
  dsimp only
  refine StrandKept.trans ?_ (.eachChannel _ _ fun t m => .takeTrigger m t _ _ _)
  refine StrandKept.trans ?_ (.applySchedule n _ _)
  exact (StrandKept.modStrand n s _).trans (.raiseStrand n _ _ _)

/-- An encoder count. -/
theorem StrandKept.encoderCount (n : StrandId) (s : State) (input : EncInput) :
    StrandKept n s (s.encoderCount n input) := by
  have forward : ∀ t : State, StrandKept n t (t.forwardCount n) := by
    intro t
    unfold State.forwardCount
    dsimp only
    split
    · exact .stopStrand n t _
    · split
      · unfold State.highRaised
        dsimp only
        split
        · refine StrandKept.trans ?_ (.lineTrigger n _)
          exact (StrandKept.modStrand n t _).trans (.modStrand n _ _)
        · exact (StrandKept.modStrand n t _).trans (.modStrand n _ _)
      · exact .modStrand n t _
  have reverse : ∀ t : State, StrandKept n t (t.reverseCount n) := by
    intro t
    unfold State.reverseCount
    split
    · exact .raiseStrand n t _ _
    · exact .modStrand n t _
  unfold State.encoderCount
  dsimp only
  split
  · exact .modStrand n s _
  all_goals
    split
    · exact StrandKept.trans (.modStrand n s _) (forward _)
    · exact StrandKept.trans (.modStrand n s _) (reverse _)

end Sys2Proof.Machine
end

