-- ==== Sys2Proof/Laws/Requests.lean ====
section
/-! SUPPORT. What receiving a host frame can do (09, R164), and what taking a request can (R166, R167): nothing, or
the oldest frame handled, which is answered first and then has its effect. Bytes of numbers are read back from the
bodies they were written in. -/

namespace Sys2Proof.Machine

/-! ### Receiving -/

/-- Bytes fit the frame in reception exactly when one is in reception and they begin with what it already has. -/
theorem State.hostReceives_iff (s : State) (bytes : List Byte) :
    s.hostReceives bytes = true ↔ ∃ got, s.hli.rx = .receiving got ∧ got <+: bytes := by
  unfold State.hostReceives
  cases s.hli.rx with
  | hunting => simp
  | receiving got => simp

/-- Abandoning finds no frame and does nothing, or counts the frame it ends. -/
theorem State.abandonFrame_cases (s : State) (rx : HostRx) :
    s.hli.rx = .hunting ∧ s.abandonFrame rx = s ∨
      (∃ got, s.hli.rx = .receiving got) ∧ s.abandonFrame rx = (s.setHostRx rx).raiseLink .framesBad := by
  unfold State.abandonFrame
  cases s.hli.rx with
  | hunting => exact .inl ⟨rfl, rfl⟩
  | receiving got => exact .inr ⟨⟨got, rfl⟩, rfl⟩

/-- Two bytes hunted over hold a start byte with the second behind it, one with nothing behind it, or none. -/
theorem huntOver_two (a b : Byte) :
    huntOver [a, b] = if a = 0xA5#8 then .receiving [b] else if b = 0xA5#8 then .receiving [] else .hunting := rfl

/-! ### Characters and the level of HTXD (R163) -/

/-- The bits of a character in line order: a low start bit, the byte from its least significant bit, a high stop bit. -/
theorem character_bits (b : Byte) :
    (character b).getLsbD 0 = false ∧ (∀ j < 8, (character b).getLsbD (1 + j) = b.getLsbD j) ∧
      (character b).getLsbD 9 = true := by
  have split : ∀ i, (character b).getLsbD i = if i < 1 then (0#1).getLsbD i else (1#1 ++ b).getLsbD (i - 1) :=
    fun i => BitVec.getLsbD_append
  have upper : ∀ i, (1#1 ++ b).getLsbD i = if i < 8 then b.getLsbD i else (1#1).getLsbD (i - 8) :=
    fun i => BitVec.getLsbD_append
  refine ⟨by rw [split]; rfl, fun j hj => ?_, by rw [split, upper]; rfl⟩
  rw [split, if_neg (by omega), Nat.add_sub_cancel_left, upper, if_pos hj]

/-- A byte sent is the byte read back from its character. -/
theorem character_data (b : Byte) : (character b).extractLsb' 1 8 = b := by
  apply BitVec.eq_of_getLsbD_eq
  intro i hi
  rw [BitVec.getLsbD_extractLsb', (character_bits b).2.1 i hi]
  simp [hi]

/-- A character that the transmitter sends is no character error. -/
theorem character_sound (b : Byte) : isCharacterError (character b) = false := by
  rw [isCharacterError, (character_bits b).1, (character_bits b).2.2]
  rfl

/-- HTXD is at its idle level while the transmitter is idle. -/
theorem State.htxd_idle {s : State} (h : s.transmitting = none) (begun : Nat) : s.htxd begun = true := by
  unfold State.htxd
  rw [h]
  rfl

/-- The transmitter is idle exactly while the part does not run or no frame waits. -/
theorem State.transmitting_none (s : State) : s.transmitting = none ↔ (s.running = false ∨ s.hli.output = []) := by
  unfold State.transmitting
  cases s.running <;> simp

/-- Bit j of the character of byte i is bit 10 i + j of the run. -/
theorem characters_getElem? (bytes : List Byte) (i j : Nat) (hj : j < 10) :
    (bytes.flatMap fun b => (List.range 10).map (character b).getLsbD)[10 * i + j]? =
      bytes[i]?.map fun b => (character b).getLsbD j := by
  induction bytes generalizing i with
  | nil => simp
  | cons b rest ih =>
    rw [List.flatMap_cons]
    cases i with
    | zero =>
      rw [List.getElem?_append_left (by simpa using hj)]
      simp [hj]
    | succ i =>
      rw [List.getElem?_append_right (by simp; omega)]
      have e : 10 * (i + 1) + j - ((List.range 10).map (character b).getLsbD).length = 10 * i + j := by simp; omega
      rw [e, ih]
      simp

/-! ### Taking and answering -/

/-- A request that may be taken and is of the kind asked for: the length check, then the handler. -/
theorem State.request_of_takes {s : State} {f : HostFrame} (t : s.Takes f) {kind : Nat}
    (hk : f.kind = BitVec.ofNat 8 kind) (length : Nat) (h : List Byte → State → Handled) :
    s.request kind length h =
      if f.body.length = length then s.handled f (h f.body (s.take f)) else s.handled f (refuse .badLength) := by
  obtain ⟨run, hand, rp, out, buf⟩ := t
  have free : decide (1 ≤ s.freeOutput) = true := by
    rw [decide_eq_true_iff, State.freeOutput, outputCapacity]; omega
  have may : s.mayTake = true := by
    simp only [State.mayTake, (State.running_iff s).2 run, hand, rp, free]; rfl
  unfold State.request
  cases e : s.hli.buffer with
  | nil => simp [e] at buf
  | cons g rest =>
    obtain rfl : g = f := by simpa [e] using buf
    simp [may, hk]

/-- A request that may be taken, of the kind asked for and with a body of the right length, is handled by its rule. -/
theorem State.request_handled {s : State} {f : HostFrame} (t : s.Takes f) (kind length : Nat)
    (hk : f.kind = BitVec.ofNat 8 kind) (hl : f.body.length = length) (h : List Byte → State → Handled) :
    s.request kind length h = s.handled f (h f.body (s.take f)) := by
  rw [State.request_of_takes t hk, if_pos hl]

/-- A request command either finds no request of its kind to take and leaves the state, or handles the oldest frame.
-/
theorem State.request_cases (s : State) (kind length : Nat) (h : List Byte → State → Handled) :
    s.request kind length h = s ∨
      ∃ f, s.hli.buffer.head? = some f ∧ s.mayTake = true ∧ f.kind = BitVec.ofNat 8 kind ∧
        (s.request kind length h = s.handled f (h f.body (s.take f)) ∧ f.body.length = length ∨
          s.request kind length h = s.handled f (refuse .badLength) ∧ f.body.length ≠ length) := by
  unfold State.request
  cases e : s.hli.buffer with
  | nil => exact .inl rfl
  | cons f rest =>
    dsimp only
    by_cases hm : (s.mayTake && f.kind == BitVec.ofNat 8 kind) = true
    · rw [if_pos hm]
      obtain ⟨may, hk⟩ : s.mayTake = true ∧ f.kind = BitVec.ofNat 8 kind := by simpa using hm
      refine .inr ⟨f, rfl, may, hk, ?_⟩
      by_cases hl : f.body.length = length
      · rw [if_pos hl]; exact .inl ⟨rfl, hl⟩
      · rw [if_neg hl]; exact .inr ⟨rfl, hl⟩
    · rw [if_neg hm]; exact .inl rfl

/-- A refused request is answered with its result code alone. -/
theorem State.handled_refuse (s : State) (f : HostFrame) (c : ResultCode) :
    s.handled f (refuse c) = s.answered f (byte (resultCode c)) := rfl

/-- A request with no effect is answered. -/
theorem State.handled_granted_id (s : State) (f : HostFrame) (more : List Byte) :
    s.handled f (granted more id) = s.answered f (byte (resultCode .ok) ++ more) := rfl

/-- A request is handled with its reply queued and itself still in hand; then it is released. -/
theorem State.handled_granted (s : State) (f : HostFrame) (more : List Byte) (effect : State → State) :
    s.handled f (granted more effect) =
      (effect { s.answered f (byte (resultCode .ok) ++ more) with
        hli := { (s.answered f (byte (resultCode .ok) ++ more)).hli with inHand := some f } }).release := rfl

/-- Releasing the request in hand and offering a notice do not disturb each other. -/
theorem State.release_offer (s : State) (k : NoticeKind) (body : List Byte) :
    (s.offer k body).release = s.release.offer k body := by
  have mask : s.release.hli.mask = s.hli.mask := rfl
  have free : s.release.freeOutput = s.freeOutput := rfl
  unfold State.offer
  rw [mask, free]
  split
  · split <;> rfl
  · rfl

/-! ### Bytes read back -/

theorem le_length (w v : Nat) : (le w v).length = w := by
  induction w generalizing v with
  | zero => rfl
  | succ w ih => simp [le, ih]

theorem byteAt_eq (b : List Byte) (i : Nat) : byteAt b i = (b.getD i 0).toNat := rfl

theorem toNat_ofNat_byte (v : Nat) : (BitVec.ofNat 8 v).toNat = v % 256 := by simp

theorem byte_length (v : Nat) : (byte v).length = 1 := rfl

theorem recipeBytes_length (r : Recipe) : (recipeBytes r).length = 37 := by
  unfold recipeBytes
  simp only [List.length_append]
  simp only [le_length, byte_length]
  rw [Vector.length_toList]

end Sys2Proof.Machine
end

