-- ==== Sys2Proof/WellFormed.lean ====
section
/-! DEFINITION. Which command terms a sender can form: the frame checks that the rules make part of the event itself.
-/

namespace Sys2Proof

/-- R23: a column groups field within 4..32 delimits a frame. -/
def ScanHeader.delimits (h : ScanHeader) : Bool := 4 ≤ h.groups.toNat && h.groups.toNat ≤ 32

/-- R23: a frame that can be delimited brings 13 bytes a group; one that cannot ends at its header. -/
def ScanFrame.wellFormed (f : ScanFrame) : Bool :=
  if f.header.delimits then f.groupBytes.length == 13 * f.header.groups.toNat else f.groupBytes.isEmpty

/-- R164: the body length of a complete frame is at most 1020. -/
def HostFrame.wellFormed (f : HostFrame) : Bool := f.body.length ≤ 1020

/-- R163: a character error is a character, so its start bit is low, with its stop bit low. R164: a frame is
over-length when its body length is above 1020. -/
def BadHostFrame.wellFormed : BadHostFrame → Bool
  | .overLength length => 1020 < length.toNat
  | .characterError received => !received.getLsbD 0 && !received.getLsbD 9
  | .badCrc => true

/-- The commands a sender can form. -/
def Instr.wellFormed : Instr → Bool
  | .scanFrame _ f => f.wellFormed
  | .syncPair _ h => h.delimits
  | .hostFrame f _ => f.wellFormed
  | .hostFrameBad why => why.wellFormed
  | .lineWaitExpiry _ k => 1 ≤ k
  | .encoderCount _ _ | .trigPulseEnd _ | .oscEdge _ | .cutEdge _ | .scanGapTimeout _ _
  | .hostGapTimeout | .transmitComplete | .unknownKind | .getInfo | .getStatus | .setStrand | .setChannel
  | .startStrand | .finishStrand | .stopStrand | .cutStrand | .scheduleGrade | .clearSchedule | .releaseChannel
  | .storeRecipe | .readRecipe | .freezeRecipe | .clearStore | .takeBillet | .getTracks | .getStats | .setNotices
  | .restart | .hostRestart | .storeComplete _ | .freezeComplete _ | .clearComplete | .resetLow | .resetHigh
  | .supplyHold | .supplyRelease | .powerUp | .clockHalt | .restartRelease _ | .supplySample _
  | .bothInputsChange _ | .startByte => true

end Sys2Proof
end

