-- ==== Sys2Proof/Tests/Slice0.lean ====
section
/-! SUPPORT. The model's own tests: ill-formed commands refused, the spec's worked examples, and for every statement
with hypotheses a state and operands that meet them. -/

namespace Sys2Proof.Tests

open Sys2Proof.Machine

/-! ### WellFormed: one ill-formed command for each check -/

theorem test_sync_pair_of_three_groups_is_ill_formed : (Instr.syncPair 0 ⟨0, 0, 0, 3⟩).wellFormed = false := by decide

theorem test_sync_pair_of_33_groups_is_ill_formed : (Instr.syncPair 0 ⟨0, 0, 0, 33⟩).wellFormed = false := by decide

theorem test_short_scan_frame_is_ill_formed : (Instr.scanFrame 0 ⟨⟨0, 0, 0, 4⟩, [1, 2], 0⟩).wellFormed = false := by
  decide

theorem test_undelimited_frame_with_groups_is_ill_formed :
    (Instr.scanFrame 0 ⟨⟨0, 0, 0, 3⟩, [1], 0⟩).wellFormed = false := by decide

theorem test_over_length_host_frame_is_ill_formed :
    (Instr.hostFrame ⟨1, 0, List.replicate 1021 0⟩ 0).wellFormed = false := by
  decide +kernel

theorem test_length_of_1020_is_not_over_length : (Instr.hostFrameBad (.overLength 1020)).wellFormed = false := by decide

theorem test_character_with_a_high_stop_bit_is_no_error :
    (Instr.hostFrameBad (.characterError 0x200#10)).wellFormed = false := by decide

theorem test_character_with_a_high_start_bit_is_none :
    (Instr.hostFrameBad (.characterError 0x001#10)).wellFormed = false := by decide

theorem test_line_zero_is_ill_formed : (Instr.lineWaitExpiry 0 0).wellFormed = false := by decide

theorem test_delimited_sync_pair_is_well_formed : (Instr.syncPair 0 ⟨0, 0, 0, 32⟩).wellFormed = true := by decide

/-! ### The spec's worked examples -/

/-- R23: the CRC over the nine ASCII bytes "123456789". -/
theorem test_crc_of_the_nine_digits :
    crc16 [0x31, 0x32, 0x33, 0x34, 0x35, 0x36, 0x37, 0x38, 0x39] = 0x29B1#16 := by decide +kernel

/-- 12, "Example: one pair". -/
theorem test_one_pair_unpacks : unpackPair 0x23 0x61 0x45 = [291, 1110] := by decide

/-- 12, "Example: one pair": the check byte of the group. -/
theorem test_one_pair_passes_its_check : groupPasses [0x23, 0x61, 0x45, 0, 0, 0, 0, 0, 0, 0, 0, 0] 0x07 = true := by decide

/-- 00, conventions: 1234 counts at 100 µm. -/
theorem test_millimetres : toMm 1234 100 = 123 := by decide

/-- 03, "residual and step at a hit": line 1 is a hit of residual 50, and B goes from 16,000 to 15,988. -/
theorem test_dark_hit : residual .dark 16000 950 = 50 ∧ stepBaseline 16000 950 (3 + 3) = 15988 := by decide

/-- 03, "residual and step at a hit": line 2 is no hit, and B goes to 15,980. -/
theorem test_dark_follow : residual .dark 15988 995 = 4 ∧ stepBaseline 15988 995 3 = 15980 := by decide

/-- 03, "BRIGHT polarity and both signs". -/
theorem test_bright_both_signs :
    residual .bright 8000 530 = 30 ∧ stepBaseline 8000 530 (2 + 3) = 8015 ∧ residual .bright 8015 490 = -10 ∧
      stepBaseline 8015 490 2 = 7972 := by decide

/-- 03, "the dead band". -/
theorem test_dead_band : stepBaseline 16007 1000 3 = 16007 ∧ stepBaseline 16007 999 3 = 16005 := by decide

/-- 04, "runs of one line". -/
theorem test_runs_of_one_line :
    runsOf 1
        [(20, 52), (21, 61), (23, 61), (30, 45), (32, 47), (40, 44), (43, 41), (50, 60), (51, 75), (52, 90), (53, 150),
          (54, 120), (55, 80), (57, 70), (58, 140), (59, 150), (60, 95), (61, 50)] =
      [⟨20, 23, 61⟩, ⟨30, 32, 47⟩, ⟨40, 40, 44⟩, ⟨43, 43, 41⟩, ⟨50, 61, 150⟩] := by decide

/-- 04, "a mark window": the gates of the six lines with wide runs. -/
theorem test_mark_window :
    [3700, 3760, 3840, 3860, 3900, 3960].map (gateOpen [3700, 3830, 3960] 30) =
      [true, false, true, true, false, true] := by decide

/-- 01, "cut intake": strand 2, torch offset 3000, P 20. -/
theorem test_cut_intake :
    [(2900, 0), (3010, 0), (9140, 0), (9150, 6140), (15300, 6140)].map (fun (h, last) =>
      cutOutcome
        { Strand.initial (Vector.replicate 20 0) 0 with
          state := .casting, high := h, lastCut := last, cfg := { StrandConfig.initial with torchOffset := 3000 } }) =
      [.cutEarly, .doubleCut, .accepted, .doubleCut, .accepted] := by decide

/-- 05, "a full log": the two oldest segments merge at the worse class. -/
theorem test_full_log_merges_the_oldest :
    mergeOldestSegments [⟨20000, .unavailable, 12⟩, ⟨20240, .inspected, 40⟩, ⟨21040, .obscured, 1⟩] =
      [⟨20000, .unavailable, 52⟩, ⟨21040, .obscured, 1⟩] := by decide

/-- 07, R137: the limits of GRADE-14 and GRADE-15 of "a cut through a closed crack" (a billet that takes both). -/
theorem test_strictest_limits :
    strictest ⟨150, 300, 40, 3, 4, 80⟩ ⟨0, 250, 50, 0, 2, 85⟩ = ⟨150, 250, 40, 3, 2, 85⟩ := by decide

/-- 08, "a full history": the merged entry's limits. -/
theorem test_merged_history_limits :
    strictest ⟨150, 0, 40, 3, 4, 80⟩ ⟨120, 300, 60, 0, 4, 85⟩ = ⟨120, 300, 40, 3, 4, 85⟩ := by decide

/-- 07, "the partition": record C straddles K = 2060. -/
theorem test_straddling_record_is_split :
    let c : DefectRecord :=
      ⟨.longitudinal 74 4 1, 0, .faceA, 2000, 2120, 12, 56, 60, 90, false, false, false, false⟩
    movedPart 100 2060 c = some { c with stop := 2060, lengthMm := 6, continues := true } ∧
      keptPart 100 2060 c = some { c with start := 2060, lengthMm := 6, continued := true } := by decide

/-- 02, "a head restart and resynchronisation": the new offset at line 256 is (7 − 256) mod 256. -/
theorem test_resynchronised_offset : (7#8 - BitVec.ofNat 8 256) = 7#8 := by decide

/-- The four tracks of 06, "one line of association". -/
def associationTable : TrackTable :=
  let t : Track := ⟨.confirmed, 3000, 4980, 40, 40, 40, 90, 0, 0, 0, 0, false⟩
  ⟨#v[some t, some { t with start := 2800, centre := 44, hitLines := 110 },
      some { t with state := .tentative, start := 4960, last := 4960, centre := 70, hitLines := 1, missRun := 1 },
      some { t with state := .coasting, start := 4000, centre := 100, hitLines := 40, missRun := 1 }, none, none, none,
      none, none, none, none, none, none, none, none, none], none⟩

/-- A recipe for the tests: DARK, no margins, gate 3, confirm_lines 3, gap_max 4, nothing graded. -/
def recipe : Recipe where
  name := Vector.replicate 8 65
  polarity := .dark
  leftMargin := 0
  rightMargin := 0
  shiftK := 3
  hitThreshold := 40
  runBridge := 1
  narrowMax := 6
  markCrack := 120
  warmLines := 8
  obscurePct := 40
  softLockMax := 8
  missedLimit := 6
  gate := 3
  confirmLines := 3
  gapMax := 4
  minDefectMm := 20
  rejectSingle := 150
  rejectTotal := 300
  conditionSingle := 40
  conditionCount := 3
  transReject := 4
  coverageMin := 80

/-- 06, "one line of association": state, centre, hit lines, miss run and gap lines of slots 0 to 5. -/
theorem test_one_line_of_association :
    let a := associate 20 5000 recipe [⟨42, 42, 55⟩, ⟨45, 46, 63⟩, ⟨70, 72, 48⟩, ⟨129, 131, 51⟩] [⟨95, 110, 90⟩]
      associationTable
    (a.table.slots.toList.take 6).map
        (Option.map fun t => (trackStateCode t.state, t.centre, t.hitLines, t.missRun, t.gapLines)) =
        [some (3, 40, 90, 1, 0), some (2, 42, 111, 0, 0), some (1, 71, 2, 0, 1), some (3, 100, 40, 1, 0),
          some (1, 45, 1, 0, 0), some (1, 130, 1, 0, 0)] ∧
      a.opened = 2 ∧ a.closed = [] := by decide

/-- 06, "a crack across a cut": the piece for [0, 1215) and the track that stays. -/
theorem test_crack_across_a_cut :
    let t : Track := ⟨.confirmed, 1100, 4200, 88, 85, 91, 153, 15300, 180, 0, 3, false⟩
    pieceRecord 0 .faceA 20 100 1215 (cutPiece 20 1215 t) =
        some ⟨.longitudinal 100 153 3, 0, .faceA, 1100, 1215, 12, 85, 91, 180, true, false, false, false⟩ ∧
      cutRemainder 20 1215 t = some { t with start := 1215, continued := true } := by decide

/-- 06, "a track walk": the record closed at line 2160. -/
theorem test_track_walk_record :
    let t : Track := ⟨.coasting, 2000, 2100, 59, 56, 60, 4, 297, 90, 3, 1, false⟩
    trackRecord 0 .faceA 20 100 t =
      ⟨.longitudinal 74 4 1, 0, .faceA, 2000, 2120, 12, 56, 60, 90, false, false, false, false⟩ := by decide

/-! ### States that meet the statements' hypotheses -/

/-- The billet open on strand 0 of `live`. -/
def billet : OpenBillet := ⟨0, 0, true, false, false, #v[some ⟨false, false, false⟩, none, none, none]⟩

/-- Strand 0 of `live`: casting at H = 300, with P = 20 and the torch 100 counts behind. -/
def castingStrand : Strand :=
  { Strand.initial (Vector.replicate 20 0) 1 with
    state := .casting, travel := 300, high := 300, nextTrigger := 320, lastTrigger := 300,
    cfg := { StrandConfig.initial with torchOffset := 100 },
    history := [⟨0, 0, 1, false, recipe⟩], billet := some billet }

/-- A track of `live`. -/
def track : Track := ⟨.confirmed, 100, 300, 10, 9, 11, 5, 250, 60, 0, 0, false⟩

/-- Channel 0 of `live`: ACTIVE on strand 0, four column groups, every column seeded at 1,000 counts. -/
def activeChannel : Channel where
  cfg := ⟨true, 0, .faceA, 0, 4⟩
  rx := ⟨.hunting, .quiet, some 15, 0, none⟩
  lp :=
    { LineProcessor.initial .active with
      columns := Vector.replicate 256 ⟨16000, true⟩, warmCount := 8, log := [⟨20, .inspected, 15⟩] }
  tt := ⟨(Vector.replicate 16 none).set 0 (some track), some ⟨300, recipe⟩⟩
  stats := Vector.replicate 22 0

/-- A cast in progress: slot 0 VALID, slot 3 VALID and frozen, the other slots EMPTY. -/
def live : State :=
  (((({ State.reset with hli := Hli.initial 0 }.putStrand 0 castingStrand).putChannel 0 activeChannel).putSlot 0
    ⟨.valid recipe, false, 1⟩).putSlot 3 ⟨.valid recipe, true, 1⟩)

/-- The only other strands and channels of `live` are as reset leaves them. -/
theorem live_channel (m : ChannelId) (h : m ≠ 0) : live.channel m = Channel.initial m (Vector.replicate 22 0) := by
  rw [live, State.putSlot_channel, State.putSlot_channel, State.channel_putChannel, if_neg h]
  simp [State.channel, State.reset, State.putStrand]

/-- `s` with strand 0 changed. -/
def onStrand (f : Strand → Strand) : State := live.modStrand 0 f

/-- `live` with channel 0 changed. -/
def onChannel (f : Channel → Channel) : State := live.modChannel 0 f

/-- `s` with a request waiting, of tag 7. -/
def asked (s : State) (kind : Byte) (body : List Byte) : State :=
  s.modHli fun h => { h with buffer := [⟨kind, 7, body⟩] }

/-- Four groups whose samples all read 1,000. -/
def groups : List Byte :=
  let g : List Byte := [0xE8, 0x83, 0x3E, 0xE8, 0x83, 0x3E, 0xE8, 0x83, 0x3E, 0xE8, 0x83, 0x3E, 0]
  g ++ g ++ g ++ g

/-- The frame with the given header and group bytes, its CRC good. -/
def frameOf (h : ScanHeader) (body : List Byte) : ScanFrame :=
  ⟨h, body, crc16 ([h.headId, h.status, h.tag, h.groups] ++ body)⟩

/-- The frame with the given header and even samples, its CRC good. -/
def frame (h : ScanHeader) : ScanFrame := frameOf h groups

/-- `live`, awaiting line 15 with tag 15, and receiving a frame with the given header. -/
def receiving (await : Await) (h : ScanHeader) : State :=
  onChannel fun c => { c with rx := { c.rx with framing := .receiving h, await := await } }

/-- The await of line 15, with tag 15. -/
def await15 : Await := .awaiting 15 300 15

/-- Every column of a fresh line processor is unseeded. -/
theorem initial_unseeded (st : ChannelState) : (LineProcessor.initial st).Unseeded := fun c => by
  simp [LineProcessor.initial, unseeded]

/-- A fresh track table is empty. -/
theorem initial_empty : TrackTable.initial.Empty := fun i => by simp [TrackTable.initial]

/-- What comes of a command is a next state. -/
theorem answers (s : State) : ∃ t, exec (.cutEdge 0) s = .next t := ⟨_, rfl⟩

/-! ### Witnesses: the machine and its invariants -/

theorem witness_StepRunsFrontCommand :
    { live with pending := [.startByte] }.pending = .startByte :: [] ∧ live.pending = [] := ⟨rfl, rfl⟩

theorem witness_OnlySupActsWhileHeldOrHalted :
    ¬(live.modSup fun p => { p with inRestart := true }).Runs ∧ ¬(live.modSup fun p => { p with clock := .halted }).Runs ∧
      ofSupervisor .startByte = false := by decide

theorem witness_QueuesKeepTheirCapacity : live.WithinCapacity ∧ ∃ t, exec (.cutEdge 0) live = .next t := by
  refine ⟨?_, answers _⟩
  unfold State.WithinCapacity
  decide

theorem live_strandsSettled : live.StrandsSettled := by
  unfold State.StrandsSettled Strand.Settled
  decide

theorem live_channelsSettled : live.ChannelsSettled := by
  intro m
  by_cases h : m = 0
  · subst h
    refine ⟨by decide, by decide, by decide, by decide, by decide, fun h => ?_, fun h => ?_⟩ <;>
      exact absurd h (by decide)
  · rw [live_channel m h]
    refine ⟨by simp [Channel.initial, LineProcessor.initial], by simp [Channel.initial, ChannelConfig.initial],
      by simp [Channel.initial, ChannelConfig.initial], by simp [Channel.initial, Receiver.initial],
      by simp [Channel.initial, Receiver.initial], fun _ => ⟨initial_unseeded _, rfl⟩, fun _ => initial_empty⟩

theorem witness_IdleStrandsHoldNothing : live.StrandsSettled ∧ ∃ t, exec (.cutEdge 0) live = .next t :=
  ⟨live_strandsSettled, answers _⟩

theorem witness_DormantChannelsAreEmpty :
    live.StrandsSettled ∧ live.ChannelsSettled ∧ ∃ t, exec (.cutEdge 0) live = .next t :=
  ⟨live_strandsSettled, live_channelsSettled, answers _⟩

theorem witness_BaselinesStayInRange : live.BaselinesInRange ∧ ∃ t, exec (.cutEdge 0) live = .next t := by
  refine ⟨fun m c => ?_, answers _⟩
  by_cases h : m = 0
  · subst h
    have e : (live.channel 0).lp.columns[c] = ⟨16000, true⟩ := by
      show (Vector.replicate 256 (⟨16000, true⟩ : Column))[c] = _
      simp
    rw [e]
    decide
  · rw [live_channel m h]
    simp [Channel.initial, LineProcessor.initial, unseeded]

theorem witness_StrandCoordinatesStayOrdered : live.StrandsOrdered ∧ ∃ t, exec (.cutEdge 0) live = .next t := by
  refine ⟨?_, answers _⟩
  unfold State.StrandsOrdered Strand.Ordered
  decide

/-- A graded report: nine lines inspected of nine, no record. -/
def report : BilletReport :=
  buildReport 0 100 billet 200 false castingStrand.history
    [faceSummary .faceA 0 ⟨false, false, false⟩ [] [⟨20, .inspected, 9⟩]] []

theorem witness_QueuedReportsAreGradedInOrder :
    { live with rq := [report] }.ReportsGraded ∧ report.grade = .accept ∧
      ∃ t, exec (.cutEdge 0) { live with rq := [report] } = .next t := by
  refine ⟨?_, by decide, answers _⟩
  unfold State.ReportsGraded BilletReport.GradedInOrder BilletReport.Rejects BilletReport.Unverifies
    BilletReport.Conditions
  decide

theorem witness_CountersAddUp :
    (live.ClosesCounted ∧ live.WideRunsCounted) ∧ ∃ t, exec (.cutEdge 0) live = .next t := by
  refine ⟨?_, answers _⟩
  unfold State.ClosesCounted State.WideRunsCounted
  decide

theorem live_slots : ∀ i : SlotId, (live.channel 0).tt.slots[i] = if i = 0 then some track else none := by decide

theorem witness_TracksStaySound :
    live.TracksSound ∧ (live.channel 0).tt.slots[0] = some track ∧ ∃ t, exec (.cutEdge 0) live = .next t := by
  refine ⟨fun m i t h => ?_, rfl, answers _⟩
  by_cases hm : m = 0
  · subst hm
    rw [live_slots i] at h
    split at h
    · obtain rfl : track = t := by simpa using h
      unfold Track.Sound
      decide
    · cases h
  · rw [live_channel m hm] at h
    simp [Channel.initial, TrackTable.initial] at h

theorem witness_StoreSlotsFitTheOperation :
    live.StoreSettled ∧ live.store.op ≠ .clear ∧ Instr.cutEdge 0 ≠ .clearStore ∧ (live.slot 3).frozen = true ∧
      ∃ t, exec (.cutEdge 0) live = .next t := by
  refine ⟨?_, by decide, by decide, by decide, answers _⟩
  show ∀ i, (live.slot i).content ≠ .writing ∧ _
  decide

theorem witness_HighWaterNeverFalls :
    (∃ t, exec (.cutEdge 0) live = .next t) ∧ (live.strand 0).travel ≤ (live.strand 0).high :=
  ⟨answers _, by decide⟩


theorem witness_ResetMeetsTheInvariants : State.reset.Runs ∧ State.reset.pending = [] := by decide

/-! ### Witnesses: requests and notices -/

/-- A request of tag 7 waits and can be taken. -/
theorem asked_takes (s : State) (kind : Byte) (body : List Byte)
    (h : s.Runs ∧ s.hli.inHand = none ∧ s.hli.restartPending = false ∧ s.hli.output.length < 16) :
    (asked s kind body).Takes ⟨kind, 7, body⟩ := ⟨h.1, h.2.1, h.2.2.1, h.2.2.2, rfl⟩

/-- `live` takes requests. -/
theorem live_ready :
    live.Runs ∧ live.hli.inHand = none ∧ live.hli.restartPending = false ∧ live.hli.output.length < 16 := by decide

/-- In `live` every request can be taken. -/
theorem live_takes (kind : Byte) (body : List Byte) : (asked live kind body).Takes ⟨kind, 7, body⟩ :=
  asked_takes live kind body live_ready

/-- Whatever is changed in a strand, every request can be taken. -/
theorem onStrand_takes (f : Strand → Strand) (kind : Byte) (body : List Byte) :
    (asked (onStrand f) kind body).Takes ⟨kind, 7, body⟩ := asked_takes _ kind body live_ready

/-- Whatever is changed in a channel, every request can be taken. -/
theorem onChannel_takes (f : Channel → Channel) (kind : Byte) (body : List Byte) :
    (asked (onChannel f) kind body).Takes ⟨kind, 7, body⟩ := asked_takes _ kind body live_ready

/-- `live` with the given store, or another operation in flight. -/
def withStore (store : Store) : State := { live with store := store }

/-- Whatever the store holds, every request can be taken. -/
theorem withStore_takes (store : Store) (kind : Byte) (body : List Byte) :
    (asked (withStore store) kind body).Takes ⟨kind, 7, body⟩ := asked_takes _ kind body live_ready

/-- `live` with `count` frames in the output queue and the given notice mask. -/
def withOutput (count : Nat) (mask : Byte) : State :=
  live.modHli fun h => { h with output := List.replicate count ⟨0xC8, 0, []⟩, mask := mask }

theorem witness_RequestsAreAnsweredOnce :
    requestForm .restart = some (0x14#8, 0) ∧ (asked live 0x14 []).Takes ⟨0x14, 7, []⟩ ∧
      (asked live 0x14 [0]).Takes ⟨0x14, 7, [0]⟩ ∧ [0#8].length ≠ 0 ∧
      (asked (withOutput 15 0) 0x01 []).Takes ⟨0x01, 7, []⟩ ∧ (asked live 0x00 []).Takes ⟨0x00, 7, []⟩ ∧
      (asked live 0x15 []).Takes ⟨0x15, 7, []⟩ ∧ 0x14 < (0x15#8).toNat :=
  ⟨rfl, live_takes _ _, live_takes _ _, by decide, asked_takes _ _ _ (by decide), live_takes _ _, live_takes _ _,
    by decide⟩

theorem witness_NoticesKeepTheReserve :
    (withOutput 0 0x7F).hli.mask.getLsbD (noticeBit .reportLost) = false ∧
      (withOutput 14 0x80).hli.mask.getLsbD (noticeBit .reportLost) = true ∧
      (withOutput 14 0x80).hli.output.length ≤ 14 ∧
      (withOutput 15 0x80).hli.mask.getLsbD (noticeBit .reportLost) = true ∧
      14 < (withOutput 15 0x80).hli.output.length := by decide

theorem witness_ReadRequestsChangeNothing :
    (asked live 0x01 []).Takes ⟨0x01, 7, []⟩ ∧ (asked live 0x02 [0, 255]).Takes ⟨0x02, 7, [0, 255]⟩ ∧
      (asked live 0x02 [1, 3]).Takes ⟨0x02, 7, [1, 3]⟩ ∧ (asked live 0x02 [1, 4]).Takes ⟨0x02, 7, [1, 4]⟩ ∧
      (asked live 0x02 [2, 7]).Takes ⟨0x02, 7, [2, 7]⟩ ∧ (asked live 0x02 [2, 8]).Takes ⟨0x02, 7, [2, 8]⟩ ∧
      (asked live 0x02 [3, 255]).Takes ⟨0x02, 7, [3, 255]⟩ ∧ (asked live 0x02 [4, 0]).Takes ⟨0x02, 7, [4, 0]⟩ ∧
      (asked live 0x11 [7]).Takes ⟨0x11, 7, [7]⟩ ∧ (asked live 0x11 [8]).Takes ⟨0x11, 7, [8]⟩ :=
  ⟨live_takes _ _, live_takes _ _, live_takes _ _, live_takes _ _, live_takes _ _, live_takes _ _, live_takes _ _,
    live_takes _ _, live_takes _ _, live_takes _ _⟩

theorem witness_TakeBilletReturnsTheOldestReport :
    (asked live 0x10 []).Takes ⟨0x10, 7, []⟩ ∧ (asked live 0x10 []).rq = [] ∧
      (asked { live with rq := [report] } 0x10 []).Takes ⟨0x10, 7, []⟩ ∧
      (asked { live with rq := [report] } 0x10 []).rq = report :: [] :=
  ⟨live_takes _ _, rfl, asked_takes _ _ _ (by decide), rfl⟩

theorem witness_GetStatsReadsAndClearsOneGroup :
    (asked live 0x12 [0, 7, 1]).Takes ⟨0x12, 7, [0] ++ byte (7 : ChannelId).val ++ byte true.toNat⟩ ∧
      (asked live 0x12 [1, 3, 0]).Takes ⟨0x12, 7, [1] ++ byte (3 : StrandId).val ++ byte false.toNat⟩ ∧
      (asked live 0x12 [2, 255, 1]).Takes ⟨0x12, 7, [2, 255] ++ byte true.toNat⟩ ∧
      (asked live 0x12 [3, 0, 0]).Takes ⟨0x12, 7, [3, 0, 0]⟩ ∧ (asked live 0x12 [0, 8, 0]).Takes ⟨0x12, 7, [0, 8, 0]⟩ ∧
      (asked live 0x12 [1, 4, 0]).Takes ⟨0x12, 7, [1, 4, 0]⟩ ∧ (asked live 0x12 [2, 0, 2]).Takes ⟨0x12, 7, [2, 0, 2]⟩ :=
  ⟨live_takes _ _, live_takes _ _, live_takes _ _, live_takes _ _, live_takes _ _, live_takes _ _, live_takes _ _⟩

theorem witness_LinkRequestsSetMaskAndPending :
    (asked live 0x13 [0x0F]).Takes ⟨0x13, 7, [0x0F]⟩ ∧ (asked live 0x14 []).Takes ⟨0x14, 7, []⟩ :=
  ⟨live_takes _ _, live_takes _ _⟩

/-- `live` receiving a host frame of which it has some bytes, with `count` frames in the buffer. -/
def hostReceiving (got : List Byte) (count : Nat) : State :=
  live.modHli fun h => { h with rx := .receiving got, buffer := List.replicate count ⟨0x01, 7, []⟩ }

/-- `live` with the RESTART reply oldest in the output queue, and restart pending as given. -/
def replying (waiting : Bool) : State :=
  live.modHli fun h => { h with output := [⟨0x94, 7, [0x00]⟩], restartPending := waiting }

theorem witness_HostFramesAreBufferedOrCounted :
    live.Runs ∧ live.hli.rx = .hunting ∧ (hostReceiving [] 4).Runs ∧ (hostReceiving [] 4).hli.rx = .receiving [] ∧
      ¬(hostReceiving [] 4).hli.buffer.length < 4 ∧ (hostReceiving [] 3).hli.buffer.length < 4 ∧
      (hostReceiving [5] 3).hli.rx = .receiving [5] ∧ [5] <+: le 2 5 ++ [0x01#8, 7#8] ++ List.replicate 5 0#8 ∧
      0x3E0E#16 ≠ crc16 (le 2 0 ++ [0x01#8, 7#8] ++ []) ∧
      (1020 < (0xFD#8).toNat + 256 * (0x03#8).toNat ∧ ([] : List Byte) <+: [0xFD#8, 0x03#8]) ∧
      (1020 < (5#8).toNat + 256 * (0xA5#8).toNat ∧ [5#8] <+: [5#8, 0xA5#8]) ∧
      (replying false).hli.output = ⟨0x94, 7, [0x00]⟩ :: [] ∧
      (replying false).hli.restartPending = false ∧ (replying true).hli.restartPending = true ∧
      (0x81#8) ≠ 0x94#8 ∧ (0x0FE#10).getLsbD 0 = false ∧ (0x0FE#10).getLsbD 9 = false ∧
      (0xA5#8 :: (le 2 1 ++ [0x94#8, 7#8] ++ [0x00#8]))[5]? = some 0x00#8 ∧
      (live.modHli fun h => { h with output := [] }).hli.output = [] := by decide +kernel

/-- R163: the start byte 0xA5 = 1010 0101 leaves least significant bit first between a low start bit and a high stop
bit, and the next character follows at once. -/
theorem test_htxd_sends_the_start_byte :
    (List.range 12).map (replying false).htxd =
      [true, false, true, false, true, false, false, true, false, true, true, false] := by decide +kernel

/-- R163: at 115,200 bit/s a bit lasts 8680.6 ns. -/
theorem test_htxd_runs_at_the_line_rate :
    (replying false).hli.lineRate = 0 ∧ (replying false).htxdAfter 8680 = false ∧
      (replying false).htxdAfter 8681 = true := by decide +kernel

/-- The host receiver after a command; HUNTING where the command does not answer a next state. -/
def hostRxAfter (c : Instr) (s : State) : HostRx :=
  match exec c s with
  | .next t => t.hli.rx
  | .fault _ | .refused _ => .hunting

/-- R164: from the byte after the start byte, a length of 0x05A5 holds a start byte with 0x05 behind it, 0xA505 one
with nothing behind it, and 0x0500 none. -/
theorem test_over_length_frame_is_hunted_over :
    hostRxAfter (.hostFrameBad (.overLength 0x05A5)) (hostReceiving [] 0) = .receiving [5] ∧
      hostRxAfter (.hostFrameBad (.overLength 0xA505)) (hostReceiving [5] 0) = .receiving [] ∧
      hostRxAfter (.hostFrameBad (.overLength 0x0500)) (hostReceiving [] 0) = .hunting := by decide

/-! ### Witnesses: restart and supervision -/

/-- `live` with the supervisor changed. -/
def supervised (f : Supervisor → Supervisor) : State := live.modSup f

theorem witness_RestartDefaultsEveryBlock :
    live.sup.inRestart = false ∧ (supervised fun p => { p with below := 2 }).sup.holding = false ∧
      (supervised fun p => { p with below := 2 }).sup.inRestart = false ∧
      (supervised fun p => { p with below := 2 }).sup.below = 2 ∧ (replying true).sup.inRestart = false ∧
      (replying true).sup.clock = .running ∧ (replying true).hli.restartPending = true ∧
      (∃ tag rest, (replying true).hli.output = ⟨0x94#8, tag, [0x00#8]⟩ :: rest) ∧
      (withStore ⟨live.store.slots, .freeze 0⟩).store.op = .freeze 0 ∧
      (supervised fun p => { p with clock := .halted, below := 2 }).sup.clock = .halted :=
  ⟨rfl, rfl, rfl, rfl, rfl, rfl, rfl, ⟨7, [], rfl⟩, rfl, rfl⟩

theorem witness_SupplySamplesAreCounted :
    live.sup.holding = false ∧ live.sup.below < 2 ∧ (supervised fun p => { p with below := 1 }).sup.below < 2 ∧
      (supervised fun p => { p with below := 2 }).sup.holding = false ∧
      (supervised fun p => { p with below := 2 }).sup.below = 2 ∧
      (supervised fun p => { p with holding := true, above := 1 }).sup.holding = true ∧
      (supervised fun p => { p with holding := true, above := 1 }).sup.above < 2 ∧
      (supervised fun p => { p with holding := true, above := 2 }).sup.holding = true ∧
      (supervised fun p => { p with holding := true, above := 2 }).sup.above = 2 := by decide

theorem witness_HoldsAndHaltsAreRecorded :
    live.Runs ∧ (supervised fun p => { p with below := 2 }).sup.holding = false ∧
      (supervised fun p => { p with below := 2 }).sup.below = 2 ∧
      (supervised fun p => { p with below := 2, inRestart := true, pinHold := true }).sup.inRestart = true ∧
      (supervised fun p => { p with below := 2, clock := .halted }).sup.inRestart = false ∧
      (supervised fun p => { p with below := 2, clock := .halted }).sup.clock = .halted := by decide

/-- R143, R181: ATTN is low in `live`, high with a channel in HARD_LOCK or a report waiting, and low while held. -/
theorem test_attn_follows_locks_and_reports :
    live.attn = false ∧ (live.modLp 0 fun lp => { lp with state := .hardLock .link }).attn = true ∧
      ({ live with rq := [report] }).attn = true ∧
      ({ (supervised fun p => { p with inRestart := true }) with rq := [report] }).attn = false := by decide

/-- R163, R183: a frame being sent is cut short by the halt, and the line goes to its idle level. -/
theorem test_halt_cuts_a_frame_short :
    (replying false).htxd 1 = false ∧ ((replying false).modSup fun p => { p with clock := .halted }).htxd 1 = true ∧
      ((replying false).modSup fun p => { p with clock := .halted }).hli.output = (replying false).hli.output := by
  decide +kernel

theorem witness_ReleaseRecordsTheCause :
    (supervised fun p => { p with inRestart := true }).sup.inRestart = true ∧
      (supervised fun p => { p with inRestart := true }).sup.holding = false ∧
      (supervised fun p => { p with inRestart := true }).sup.pinHold = false ∧
      (supervised fun p => { p with inRestart := true, holding := true }).sup.inRestart = true ∧
      (supervised fun p => { p with inRestart := true, holding := true }).sup.holding = true ∧
      (supervised fun p => { p with inRestart := true, pinHold := true }).sup.inRestart = true ∧
      (supervised fun p => { p with inRestart := true, pinHold := true }).sup.pinHold = true ∧
      (supervised fun p => { p with inRestart := true, started := true }).sup.started = true := by decide

/-! ### Witnesses: travel and triggers -/

/-- Strand 0 IDLE, torch 128 lines behind. -/
def idle : State :=
  onStrand fun x =>
    { Strand.initial x.stats x.billetCounter with cfg := { StrandConfig.initial with torchOffset := 2560 } }

theorem witness_ForwardCountsRaiseHighWater :
    idle.Runs ∧ (idle.strand 0).state = .idle ∧ live.Runs ∧ (live.strand 0).state ≠ .idle ∧
      movesForward .plus (live.strand 0).phase (pairAfter (live.strand 0).phase .encA) = true ∧
      (live.strand 0).high ≤ (live.strand 0).travel ∧ (live.strand 0).travel < maxCoord ∧
      (live.strand 0).travel + 1 ≠ (live.strand 0).nextTrigger ∧
      (let s := onStrand fun x =>
          { x with travel := 4294967294, high := 4294967294, nextTrigger := 4294967295, lastTrigger := 4294967275 };
        s.Runs ∧ (s.strand 0).high ≤ (s.strand 0).travel ∧ (s.strand 0).travel < maxCoord ∧
          maxCoord < (s.strand 0).nextTrigger + (s.strand 0).cfg.countsPerLine) := by decide

theorem witness_ReverseCountsLowerTravelAlone :
    live.Runs ∧ (live.strand 0).state ≠ .idle ∧
      movesForward .plus (live.strand 0).phase (pairAfter (live.strand 0).phase .encB) = false ∧
      0 < (live.strand 0).travel ∧
      ((onStrand fun x => { x with travel := 0 }).Runs ∧ ((onStrand fun x => { x with travel := 0 }).strand 0).travel = 0) ∧
      (let s := onStrand fun x => { x with travel := 299 };
        s.Runs ∧ movesForward .plus (s.strand 0).phase (pairAfter (s.strand 0).phase .encA) = true ∧
          (s.strand 0).travel < (s.strand 0).high ∧ (s.strand 0).high ≤ maxCoord) := by decide

/-- Strand 0 one count short of the line at 320, with the given schedule. -/
def due (schedule : List ScheduleEntry) : State :=
  onStrand fun x => { x with travel := 319, high := 319, schedule := schedule }

/-- Strand 0 one count short of the last line whose successor still lies within the travel. -/
def lastLine : State :=
  onStrand fun x =>
    { x with travel := 4294967274, high := 4294967274, nextTrigger := 4294967275, lastTrigger := 4294967255 }

theorem witness_LineTriggerOpensTheAwaits :
    (due [⟨321, 0⟩]).Triggers 0 .encA ∧
      (∀ e, ((due [⟨321, 0⟩]).strand 0).schedule.head? = some e → ((due [⟨321, 0⟩]).strand 0).nextTrigger < e.coord) ∧
      ((due [⟨321, 0⟩]).channel 0).cfg.enabled = true ∧ ((due [⟨321, 0⟩]).channel 0).cfg.strand = 0 ∧
      ((due [⟨321, 0⟩]).channel 0).rx.await = .quiet ∧ lastLine.Triggers 0 .encA ∧
      (lastLine.strand 0).schedule = [] ∧
      ((due []).modRx 0 fun r => { r with await := await15 }).Triggers 0 .encA ∧
      (((due []).modRx 0 fun r => { r with await := await15 }).channel 0).rx.await = .awaiting 15 300 15 := by
  refine ⟨by decide, fun e h => ?_, by decide, by decide, by decide, by decide, by decide, by decide, by decide⟩
  obtain rfl : (⟨321, 0⟩ : ScheduleEntry) = e := by simpa [due, onStrand, State.modStrand] using h
  decide

/-- A history of five entries, the newest at 319. -/
def fullHistory : List HistoryEntry :=
  [⟨0, 0, 1, false, recipe⟩, ⟨20, 3, 1, false, recipe⟩, ⟨40, 0, 1, false, recipe⟩, ⟨60, 3, 1, false, recipe⟩,
    ⟨319, 0, 1, false, recipe⟩]

theorem witness_DueGradeChangesEnterTheHistory :
    let s := due [⟨320, 3⟩, ⟨321, 0⟩]
    let two := due [⟨318, 0⟩, ⟨320, 3⟩, ⟨321, 0⟩]
    let failing := due [⟨320, 4⟩]
    let full := (due [⟨320, 3⟩]).modStrand 0 fun x => { x with history := fullHistory }
    s.Triggers 0 .encA ∧ (s.strand 0).schedule = [⟨320, 3⟩] ++ [⟨321, 0⟩] ∧ two.Triggers 0 .encA ∧
      (two.strand 0).schedule = [⟨318, 0⟩, ⟨320, 3⟩] ++ [⟨321, 0⟩] ∧
      ([⟨318, 0⟩, ⟨320, 3⟩] : List ScheduleEntry).filter (fun e => (two.slot e.slot).content.isValid) =
        [⟨318, 0⟩, ⟨320, 3⟩] ∧
      failing.Triggers 0 .encA ∧ (failing.strand 0).schedule = [⟨320, 4⟩] ++ [] ∧
      ([⟨320, 4⟩] : List ScheduleEntry).filter (fun e => (failing.slot e.slot).content.isValid) = [] ∧ 320 ≤ (s.strand 0).nextTrigger ∧
      (s.strand 0).nextTrigger < 321 ∧ (s.strand 0).history.map (·.coord) = [0] ∧ 0 < (s.strand 0).nextTrigger ∧
      (s.slot 3).content = .valid recipe ∧ (s.slot 4).content.isValid = false ∧ (s.strand 0).history.length < 5 ∧
      full.Triggers 0 .encA ∧ (full.strand 0).history.length = 5 ∧
      (full.strand 0).history.getLast?.map (·.coord) = some 319 ∧ 319 < (full.strand 0).nextTrigger := by decide

/-- Slot 3 with another recipe. -/
def otherGrade (r : Recipe) : State := (due [⟨320, 3⟩]).putSlot 3 ⟨.valid r, true, 1⟩

theorem witness_GradeChangesRestartChannels :
    let bright := otherGrade { recipe with polarity := .bright, leftMargin := 12, rightMargin := 12 }
    let empty := otherGrade { recipe with leftMargin := 13, rightMargin := 12 }
    bright.Triggers 0 .encA ∧ empty.Triggers 0 .encA ∧ (due [⟨320, 3⟩]).Triggers 0 .encA ∧
      (bright.strand 0).schedule = [⟨320, 3⟩] ∧ 320 ≤ (bright.strand 0).nextTrigger ∧
      (bright.slot 3).content = .valid { recipe with polarity := .bright, leftMargin := 12, rightMargin := 12 } ∧
      (empty.slot 3).content = .valid { recipe with leftMargin := 13, rightMargin := 12 } ∧
      (bright.strand 0).history.getLast? = some ⟨0, 0, 1, false, recipe⟩ ∧ 0 < (bright.strand 0).nextTrigger ∧
      (bright.channel 0).cfg.enabled = true ∧ (bright.channel 0).cfg.strand = 0 ∧
      (bright.channel 0).rx.await = .quiet ∧ (bright.channel 0).lp.state = .active ∧
      12 + 12 + 8 ≤ 8 * (bright.channel 0).cfg.groups ∧ 8 * (empty.channel 0).cfg.groups < 13 + 12 + 8 ∧
      ((bright.modLp 0 fun lp => { lp with state := .softLock .active }).channel 0).lp.state = .softLock .active := by
  decide

theorem witness_TravelEndStopsTheStrand :
    let s := onStrand fun x =>
      { x with travel := 4294967295, high := 4294967295, nextTrigger := 4294967295, lastTrigger := 4294967275 }
    s.Runs ∧ (s.strand 0).state ≠ .idle ∧
      movesForward (s.strand 0).cfg.sign (s.strand 0).phase (pairAfter (s.strand 0).phase .encA) = true ∧
      (s.strand 0).travel = maxCoord ∧ (s.strand 0).high = maxCoord := by decide

theorem witness_MouldStrokesEnterForecasts :
    (idle.Runs ∧ (idle.strand 0).state = .idle) ∧
      (let s := onStrand fun x => { x with forecasts := List.replicate 23 300 };
        s.Runs ∧ (s.strand 0).state ≠ .idle ∧ (s.strand 0).forecasts.length < 24) ∧
      (let s := onStrand fun x => { x with forecasts := List.replicate 24 300 };
        s.Runs ∧ (s.strand 0).state ≠ .idle ∧ 24 ≤ (s.strand 0).forecasts.length) := by decide

/-! ### Witnesses: cuts -/

/-- A cut from the pin is a cut of the strand. -/
theorem edge_cuts (s : State) (n : StrandId) (code k : Nat) (h : s.Runs) :
    CutOn (.cutEdge n) n code k s (s.putStrand n { s.strand n with cutLevel := true }) := ⟨h, .inl ⟨rfl, rfl⟩⟩

/-- A cut from the host is a cut of the strand. -/
theorem request_cuts (s : State) (n : StrandId) (code k : Nat) (h : (asked s 0x08 (byte n.val)).Runs)
    (ht : (asked s 0x08 (byte n.val)).Takes ⟨0x08, 7, byte n.val⟩) :
    CutOn .cutStrand n code k (asked s 0x08 (byte n.val))
      ((asked s 0x08 (byte n.val)).answered ⟨0x08, 7, byte n.val⟩ ([0x00#8] ++ byte code ++ le 4 k)) :=
  ⟨h, .inr ⟨rfl, 7, ht, rfl⟩⟩

theorem witness_IgnoredCutsOnlyCount :
    (idle.strand 0).state = .idle ∧ (∃ s', CutOn (.cutEdge 0) 0 1 0 idle s') ∧
      (let s := onStrand fun x => { x with travel := 99, high := 99 };
        (s.strand 0).state ≠ .idle ∧ (s.strand 0).high < (s.strand 0).cfg.torchOffset ∧
          ∃ s', CutOn (.cutEdge 0) 0 2 0 s s') ∧
      (let s := onStrand fun x => { x with lastCut := 180 };
        (s.strand 0).state ≠ .idle ∧ (s.strand 0).cfg.torchOffset ≤ (s.strand 0).high ∧
          (s.strand 0).high - (s.strand 0).cfg.torchOffset ≤ (s.strand 0).lastCut + (s.strand 0).cfg.countsPerLine ∧
          ∃ s', CutOn .cutStrand 0 3 0 (asked s 0x08 [0]) s') ∧
      (asked live 0x08 [4]).Takes ⟨0x08, 7, [4]⟩ := by
  refine ⟨by decide, ⟨_, edge_cuts _ _ _ _ (by decide)⟩, ⟨by decide, by decide, ⟨_, edge_cuts _ _ _ _ (by decide)⟩⟩,
    ⟨by decide, by decide, by decide, ⟨_, request_cuts _ 0 3 0 (by decide) (onStrand_takes _ _ _)⟩⟩, live_takes _ _⟩

/-- Strand 0 with its last cut one count closer than the nearest accepted one, in the given state. -/
def cutting (state : StrandState) : State := onStrand fun x => { x with lastCut := 179, state := state }

theorem witness_AcceptedCutsCloseAndOpenBillets :
    ((cutting .casting).strand 0).state = .casting ∧ (cutting .casting).AcceptsCut 0 ∧
      ((cutting .casting).strand 0).billet = some billet ∧ 1 ≤ ((cutting .casting).strand 0).cfg.countsPerLine ∧
      (∃ s', CutOn (.cutEdge 0) 0 0 ((cutting .casting).cutAt 0) (cutting .casting) s') ∧
      ∃ s', CutOn .cutStrand 0 0 200 (asked (cutting .casting) 0x08 [0]) s' :=
  ⟨by decide, by decide, rfl, by decide, ⟨_, edge_cuts _ _ _ _ (by decide)⟩,
    ⟨_, request_cuts _ 0 0 200 (by decide) (onStrand_takes _ _ _)⟩⟩

theorem witness_FinishingCutsEndTheCast :
    ((cutting .finishing).strand 0).state = .finishing ∧ (cutting .finishing).AcceptsCut 0 ∧
      ((cutting .finishing).strand 0).billet = some billet ∧
      ∃ s', CutOn (.cutEdge 0) 0 0 ((cutting .finishing).cutAt 0) (cutting .finishing) s' :=
  ⟨by decide, by decide, rfl, ⟨_, edge_cuts _ _ _ _ (by decide)⟩⟩

/-- A longitudinal record over the given span. -/
def record (start stop : Nat) : DefectRecord :=
  ⟨.longitudinal 60 5 0, 0, .faceA, start, stop, 4, 3, 5, 70, false, false, false, false⟩

theorem witness_CutsPartitionThePendingQueue :
    let s := onStrand fun x => { x with defects := [record 20 200, record 60 260, record 200 240] }
    s.Runs ∧ (s.strand 0).state = .casting ∧ s.AcceptsCut 0 ∧ (s.strand 0).billet = some billet ∧ s.cutAt 0 = 200 ∧
      record 20 200 ∈ (s.strand 0).defects ∧ record 60 260 ∈ (s.strand 0).defects ∧
      record 200 240 ∈ (s.strand 0).defects := by decide

/-- `live` with the given track in slot 0. -/
def tracking (t : Track) : State := onChannel fun c => { c with tt := { c.tt with slots := c.tt.slots.set 0 (some t) } }

theorem witness_CutsSplitTheTracks :
    (let s := tracking { track with start := 200 };
      s.Runs ∧ (s.strand 0).state = .casting ∧ s.AcceptsCut 0 ∧ (s.strand 0).billet = some billet ∧
        (s.channel 0).cfg.enabled = true ∧ (s.channel 0).cfg.strand = 0 ∧
        (s.channel 0).tt.slots[0] = some { track with start := 200 } ∧ track.state ≠ .tentative ∧ s.cutAt 0 ≤ 200) ∧
      (let s := tracking { track with last := 180 };
        (s.channel 0).tt.slots[0] = some { track with last := 180 } ∧ 100 < s.cutAt 0 ∧
          180 + (s.strand 0).cfg.countsPerLine ≤ s.cutAt 0) ∧
      (let s := tracking { track with start := 199, last := 199 };
        (s.channel 0).tt.slots[0] = some { track with start := 199, last := 199 } ∧ 199 < s.cutAt 0 ∧
          s.cutAt 0 < 199 + (s.strand 0).cfg.countsPerLine) := by decide

/-! ### Witnesses: requests on strands and channels -/

theorem witness_SetStrandReplacesTheConfiguration :
    let body := byte 3 ++ le 2 65535 ++ le 2 0 ++ le 4 4294967295 ++ le 2 4096 ++ le 4 16777216 ++ le 2 49 ++ byte 1
    (asked live 0x03 body).Takes ⟨0x03, 7, body⟩ ∧ ((asked live 0x03 body).strand 3).state = .idle ∧
      (let bad := byte 4 ++ le 2 0 ++ le 2 0 ++ le 4 0 ++ le 2 0 ++ le 4 0 ++ le 2 0 ++ byte 2;
        (asked live 0x03 bad).Takes ⟨0x03, 7, bad⟩) ∧
      (let casting := byte 0 ++ le 2 10 ++ le 2 1 ++ le 4 0 ++ le 2 0 ++ le 4 0 ++ le 2 50 ++ byte 0;
        (asked live 0x03 casting).Takes ⟨0x03, 7, casting⟩ ∧ ((asked live 0x03 casting).strand 0).state ≠ .idle) :=
  ⟨live_takes _ _, by decide, live_takes _ _, live_takes _ _, by decide⟩

theorem witness_SetChannelResetsTheChannel :
    (asked live 0x04 [8, 1, 3, 3, 9, 4]).Takes ⟨0x04, 7, [8, 1, 3, 3, 9, 4]⟩ ∧
      (asked live 0x04 [7, 1, 0, 3, 9, 33]).Takes ⟨0x04, 7, [7, 1, 0, 3, 9, 33]⟩ ∧ (live.strand 0).state ≠ .idle ∧
      (asked idle 0x04 [7, 1, 0, 0, 9, 33]).Takes ⟨0x04, 7, [7, 1, 0, 0, 9, 33]⟩ ∧
      (idle.strand (idle.channel 7).cfg.strand).state = .idle ∧ (idle.strand 0).state = .idle ∧
      (∃ j, j ≠ 7 ∧ (idle.channel j).cfg.enabled = true ∧ (idle.channel j).cfg.strand = 0 ∧
        (idle.channel j).cfg.face = .faceA) ∧
      (asked idle 0x04 [7, 1, 0, 3, 9, 3]).Takes ⟨0x04, 7, [7, 1, 0, 3, 9, 3]⟩ ∧ faceCode .faceD = (3#8).toNat ∧
      ¬∃ j, j ≠ 7 ∧ (idle.channel j).cfg.enabled = true ∧ (idle.channel j).cfg.strand = 0 ∧
        (idle.channel j).cfg.face = .faceD :=
  ⟨live_takes _ _, live_takes _ _, by decide, onStrand_takes _ _ _, by decide, by decide, ⟨0, by decide⟩,
    onStrand_takes _ _ _, by decide, by decide⟩

/-- The store of `live` with slot 5 WRITING. -/
def writing : Store := ⟨live.store.slots.set 5 ⟨.writing, false, 2⟩, .store 5 recipe⟩

theorem witness_StartStrandChecksInOrder :
    (asked live 0x05 [4, 0]).Takes ⟨0x05, 7, [4, 0]⟩ ∧ (asked live 0x05 [0, 16]).Takes ⟨0x05, 7, [0, 16]⟩ ∧
      (asked live 0x05 [0, 15]).Takes ⟨0x05, 7, [0, 15]⟩ ∧ (live.strand 0).state ≠ .idle ∧
      (asked (withStore writing) 0x05 [3, 5]).Takes ⟨0x05, 7, [3, 5]⟩ ∧
      ((withStore writing).slot 5).content = .writing ∧
      (asked idle 0x05 [0, 15]).Takes ⟨0x05, 7, [0, 15]⟩ ∧ (idle.slot 15).content = .empty ∧
      (idle.strand 0).state = .idle ∧ (idle.slot 0).content = .valid recipe ∧
      (let s := idle.modStrand 0 fun x => { x with cfg := { x.cfg with torchOffset := 2559 } };
        (asked s 0x05 [0, 0]).Takes ⟨0x05, 7, [0, 0]⟩ ∧ (s.strand 0).state = .idle ∧
          (s.slot 0).content = .valid recipe ∧
          (s.strand 0).cfg.torchOffset < 128 * (s.strand 0).cfg.countsPerLine) ∧
      (asked idle 0x05 [3, 0]).Takes ⟨0x05, 7, [3, 0]⟩ ∧ (idle.strand 3).state = .idle ∧
      (∀ m, ¬((idle.channel m).cfg.enabled = true ∧ (idle.channel m).cfg.strand = 3)) ∧
      (let r := { recipe with leftMargin := 13, rightMargin := 12 };
        let s := idle.putSlot 0 ⟨.valid r, false, 1⟩;
        (asked s 0x05 [0, 0]).Takes ⟨0x05, 7, [0, 0]⟩ ∧ (s.slot 0).content = .valid r ∧
          (s.channel 0).cfg.enabled = true ∧ (s.channel 0).cfg.strand = 0 ∧
          8 * (s.channel 0).cfg.groups < r.leftMargin + r.rightMargin + 8) :=
  ⟨live_takes _ _, live_takes _ _, live_takes _ _, by decide, withStore_takes _ _ _, by decide, onStrand_takes _ _ _,
    by decide, by decide, by decide, ⟨asked_takes _ _ _ (by decide), by decide, by decide, by decide⟩,
    onStrand_takes _ _ _, by decide, by decide, asked_takes _ _ _ (by decide), by decide, by decide, by decide,
    by decide⟩

theorem witness_StartStrandBeginsACast :
    let r := { recipe with leftMargin := 12, rightMargin := 12 }
    let s := idle.putSlot 0 ⟨.valid r, false, 1⟩
    (asked s 0x05 [0, 0]).Takes ⟨0x05, 7, byte (0 : StrandId).val ++ byte (0 : SlotId).val⟩ ∧
      (s.strand 0).state = .idle ∧ (s.slot 0).content = .valid r ∧
      128 * (s.strand 0).cfg.countsPerLine ≤ (s.strand 0).cfg.torchOffset ∧
      (∃ m, (s.channel m).cfg.enabled = true ∧ (s.channel m).cfg.strand = 0) ∧
      ∀ m, (s.channel m).cfg.enabled = true → (s.channel m).cfg.strand = 0 →
        r.leftMargin + r.rightMargin + 8 ≤ 8 * (s.channel m).cfg.groups :=
  ⟨asked_takes _ _ _ (by decide), by decide, by decide, by decide, ⟨0, by decide⟩, by decide⟩

theorem witness_FinishAndStopEndTheCast :
    (asked live 0x06 [4]).Takes ⟨0x06, 7, [4]⟩ ∧ (asked live 0x07 [4]).Takes ⟨0x07, 7, [4]⟩ ∧
      (asked live 0x06 [3]).Takes ⟨0x06, 7, [3]⟩ ∧ (live.strand 3).state = .idle ∧
      (asked live 0x06 [0]).Takes ⟨0x06, 7, [0]⟩ ∧ (live.strand 0).state = .casting ∧
      (asked (cutting .finishing) 0x06 [0]).Takes ⟨0x06, 7, [0]⟩ ∧ ((cutting .finishing).strand 0).state = .finishing ∧
      (asked live 0x07 [3]).Takes ⟨0x07, 7, [3]⟩ ∧ (asked live 0x07 [0]).Takes ⟨0x07, 7, [0]⟩ :=
  ⟨live_takes _ _, live_takes _ _, live_takes _ _, by decide, live_takes _ _, by decide, onStrand_takes _ _ _,
    by decide, live_takes _ _, live_takes _ _⟩

/-- A SCHEDULE_GRADE body for strand 0 and slot 15. -/
def gradeAt (g : Nat) : List Byte := [0] ++ le 4 g ++ [15]

/-- Strand 0 with `count` schedule entries, the last at 400. -/
def scheduled (count : Nat) : State :=
  onStrand fun x => { x with schedule := (List.range count).map fun i => ⟨401 + i - count, 0⟩ }

theorem witness_ScheduleRequestsKeepTheOrder :
    (asked live 0x09 ([4] ++ le 4 400 ++ [0])).Takes ⟨0x09, 7, [4] ++ le 4 400 ++ [0]⟩ ∧
      (asked live 0x09 ([0] ++ le 4 400 ++ [16])).Takes ⟨0x09, 7, [0] ++ le 4 400 ++ [16]⟩ ∧
      (asked idle 0x09 (gradeAt 400)).Takes ⟨0x09, 7, gradeAt 400⟩ ∧ (idle.strand 0).state = .idle ∧
      (asked live 0x09 (gradeAt 300)).Takes ⟨0x09, 7, gradeAt 300⟩ ∧ 300 ≤ (live.strand 0).lastTrigger ∧
      (asked (scheduled 4) 0x09 (gradeAt 400)).Takes ⟨0x09, 7, gradeAt 400⟩ ∧
      ((scheduled 4).strand 0).schedule.getLast?.map (·.coord) = some 400 ∧
      (asked (scheduled 4) 0x09 (gradeAt 401)).Takes ⟨0x09, 7, gradeAt 401⟩ ∧
      4 ≤ ((scheduled 4).strand 0).schedule.length ∧ ¬401 ≤ ((scheduled 4).strand 0).lastTrigger ∧
      (asked (scheduled 3) 0x09 (gradeAt 4294967295)).Takes ⟨0x09, 7, gradeAt 4294967295⟩ ∧
      ((scheduled 3).strand 0).schedule.length < 4 ∧ (asked live 0x0A [4]).Takes ⟨0x0A, 7, [4]⟩ ∧
      (asked (scheduled 4) 0x0A [0]).Takes ⟨0x0A, 7, [0]⟩ :=
  ⟨live_takes _ _, live_takes _ _, onStrand_takes _ _ _, by decide, live_takes _ _, by decide, onStrand_takes _ _ _,
    by decide, onStrand_takes _ _ _, by decide, by decide, onStrand_takes _ _ _, by decide, live_takes _ _,
    onStrand_takes _ _ _⟩

/-- Channel 0 in HARD_LOCK with cause LINK, on a strand whose recipe leaves the given margins out. -/
def locked (left right : Nat) : State :=
  (onChannel fun c => { c with lp := { LineProcessor.initial (.hardLock .link) with log := c.lp.log } }).modStrand 0
    fun x => { x with history := [⟨0, 0, 1, false, { recipe with leftMargin := left, rightMargin := right }⟩] }

theorem witness_ReleaseChannelLeavesHardLock :
    (asked live 0x0B [8]).Takes ⟨0x0B, 7, [8]⟩ ∧ (asked live 0x0B [0]).Takes ⟨0x0B, 7, [0]⟩ ∧
      (∀ cause, (live.channel 0).lp.state ≠ .hardLock cause) ∧
      (asked (locked 12 12) 0x0B [0]).Takes ⟨0x0B, 7, [0]⟩ ∧ ((locked 12 12).channel 0).lp.state = .hardLock .link ∧
      ((locked 12 12).strand 0).history.getLast?.map (fun h => h.recipe.leftMargin + h.recipe.rightMargin + 8) =
        some (8 * ((locked 12 12).channel 0).cfg.groups) ∧
      (asked (locked 13 12) 0x0B [0]).Takes ⟨0x0B, 7, [0]⟩ ∧ ((locked 13 12).channel 0).lp.state = .hardLock .link ∧
      ((locked 13 12).strand 0).history.getLast?.map (fun h => h.recipe.leftMargin + h.recipe.rightMargin + 8) =
        some (8 * ((locked 13 12).channel 0).cfg.groups + 1) := by
  refine ⟨live_takes _ _, live_takes _ _, fun cause => ?_, asked_takes _ _ _ (by decide), by decide, by decide,
    asked_takes _ _ _ (by decide), by decide, by decide⟩
  rw [show (live.channel 0).lp.state = .active from rfl]
  exact nofun

/-! ### Witnesses: the recipe store -/

theorem recipe_fits : recipe.Fits := by
  unfold Recipe.Fits
  decide

theorem witness_StoreRecipeBeginsAWrite :
    recipe.Fits ∧ (asked live 0x0C ([15] ++ recipeBytes recipe)).Takes ⟨0x0C, 7, [15] ++ recipeBytes recipe⟩ ∧
      ¬(recipe.conditionSingle ≠ 0 ∧ recipe.rejectSingle ≠ 0 ∧ recipe.rejectSingle < recipe.conditionSingle) ∧
      (live.slot 15).frozen = false ∧ live.store.op = .none ∧
      (asked live 0x0C ([16] ++ recipeBytes recipe)).Takes ⟨0x0C, 7, [16] ++ recipeBytes recipe⟩ ∧
      (let r := { recipe with conditionSingle := 151 };
        r.Fits ∧ (asked live 0x0C ([15] ++ recipeBytes r)).Takes ⟨0x0C, 7, [15] ++ recipeBytes r⟩ ∧
          r.conditionSingle ≠ 0 ∧ r.rejectSingle ≠ 0 ∧ r.rejectSingle < r.conditionSingle) ∧
      (asked live 0x0C (List.replicate 38 2)).Takes ⟨0x0C, 7, List.replicate 38 2⟩ ∧
      (asked live 0x0C ([3] ++ recipeBytes recipe)).Takes ⟨0x0C, 7, [3] ++ recipeBytes recipe⟩ ∧
      (live.slot 3).frozen = true ∧
      (asked (withStore writing) 0x0C ([0] ++ recipeBytes recipe)).Takes ⟨0x0C, 7, [0] ++ recipeBytes recipe⟩ ∧
      ((withStore writing).slot 0).frozen = false ∧ (withStore writing).store.op ≠ .none := by
  refine ⟨recipe_fits, live_takes _ _, by decide, by decide, by decide, live_takes _ _,
    ⟨?_, live_takes _ _, by decide, by decide, by decide⟩, live_takes _ _, live_takes _ _, by decide,
    withStore_takes _ _ _, by decide, by decide⟩
  unfold Recipe.Fits
  decide

theorem witness_ReadRecipeReturnsTheSlot :
    (asked live 0x0D [16]).Takes ⟨0x0D, 7, [16]⟩ ∧ (asked (withStore writing) 0x0D [5]).Takes ⟨0x0D, 7, [5]⟩ ∧
      ((withStore writing).slot 5).content = .writing ∧ (asked live 0x0D [15]).Takes ⟨0x0D, 7, [15]⟩ ∧
      (live.slot 15).content = .empty ∧ (asked live 0x0D [3]).Takes ⟨0x0D, 7, [3]⟩ ∧
      (live.slot 3).content = .valid recipe :=
  ⟨live_takes _ _, withStore_takes _ _ _, by decide, live_takes _ _, by decide, live_takes _ _, by decide⟩

/-- `live` after the end of its cast. -/
def resting (op : StoreOp) : State := { idle with store := { idle.store with op := op } }

theorem witness_FreezeAndClearBeginOperations :
    (asked live 0x0E [16]).Takes ⟨0x0E, 7, [16]⟩ ∧ (asked (withStore writing) 0x0E [5]).Takes ⟨0x0E, 7, [5]⟩ ∧
      ((withStore writing).slot 5).content = .writing ∧ (asked live 0x0E [15]).Takes ⟨0x0E, 7, [15]⟩ ∧
      (live.slot 15).content = .empty ∧ (asked live 0x0E [3]).Takes ⟨0x0E, 7, [3]⟩ ∧
      (live.slot 3).content.isValid = true ∧ (live.slot 3).frozen = true ∧
      (asked (withStore writing) 0x0E [0]).Takes ⟨0x0E, 7, [0]⟩ ∧
      ((withStore writing).slot 0).content.isValid = true ∧ ((withStore writing).slot 0).frozen = false ∧
      (withStore writing).store.op ≠ .none ∧ (asked live 0x0E [0]).Takes ⟨0x0E, 7, [0]⟩ ∧
      (live.slot 0).content.isValid = true ∧ (live.slot 0).frozen = false ∧ live.store.op = .none ∧
      (asked live 0x0F []).Takes ⟨0x0F, 7, []⟩ ∧ (∃ n, (live.strand n).state ≠ .idle) ∧
      (asked (resting (.freeze 0)) 0x0F []).Takes ⟨0x0F, 7, []⟩ ∧
      (∀ n, ((resting (.freeze 0)).strand n).state = .idle) ∧ (resting (.freeze 0)).store.op ≠ .none ∧
      (asked (resting .none) 0x0F []).Takes ⟨0x0F, 7, []⟩ ∧ (∀ n, ((resting .none).strand n).state = .idle) ∧
      (resting .none).store.op = .none :=
  ⟨live_takes _ _, withStore_takes _ _ _, by decide, live_takes _ _, by decide, live_takes _ _, by decide, by decide,
    withStore_takes _ _ _, by decide, by decide, by decide, live_takes _ _, by decide, by decide, by decide,
    live_takes _ _, ⟨0, by decide⟩, asked_takes _ _ _ (by decide), by decide, by decide, asked_takes _ _ _ (by decide),
    by decide, by decide⟩

theorem witness_StoreOperationsComplete :
    (withStore writing).Runs ∧ (withStore writing).store.op = .store 5 recipe ∧
      (let s := withStore ⟨live.store.slots.set 5 ⟨.writing, false, 0xFFFF⟩, .store 5 recipe⟩;
        s.Runs ∧ (s.slot 5).revision = 0xFFFF#16) ∧
      (let s := withStore ⟨live.store.slots, .freeze 0⟩;
        s.Runs ∧ s.store.op = .freeze 0 ∧ (s.slot 0).content.isValid = true ∧ (s.slot 0).frozen = false) ∧
      (withStore ⟨Vector.replicate 16 ⟨.writing, true, 3⟩, .clear⟩).Runs ∧
      (withStore ⟨Vector.replicate 16 ⟨.writing, true, 3⟩, .clear⟩).store.op = .clear := by decide

/-! ### Witnesses: scan lines -/

/-- Frame headers of channel 0: good ones of a tag, and one for each check that fails. -/
def header (tag : Byte) : ScanHeader := ⟨0, 0, tag, 4⟩

theorem witness_FramesOutsideACastAreStray :
    let s := idle.modRx 0 fun r => { r with framing := .receiving (header 15) }
    idle.Runs ∧ (idle.channel 0).rx.framing = .hunting ∧ ¬idle.InCast 0 ∧ s.Runs ∧ ¬s.InCast 0 ∧
      (s.channel 0).rx.framing = .receiving (frame (header 15)).header ∧
      (frame (header 15)).groupBytes.length = 13 * (frame (header 15)).header.groups.toNat ∧
      (3#8).toNat < 4 ∧ 32 < (33#8).toNat ∧ 4 ≤ (4#8).toNat ∧ (32#8).toNat ≤ 32 ∧ ¬live.InCast 7 := by decide

theorem witness_FaultyFramesDiscardTheLine :
    let s := receiving .quiet (header 15)
    let t := receiving await15 (header 15)
    s.Runs ∧ s.InCast 0 ∧ (s.channel 0).rx.framing = .receiving (header 15) ∧ (s.channel 0).rx.await = .quiet ∧ t.Runs ∧
      t.InCast 0 ∧ (t.channel 0).rx.framing = .receiving (header 15) ∧
      (t.channel 0).rx.await = .awaiting 15 300 15 ∧ live.Runs ∧ live.InCast 0 ∧
      (live.channel 0).rx.framing = .hunting := by decide

/-- The frame in reception completes with a good CRC. -/
theorem frameOf_completes (a : Await) (h : ScanHeader) (body : List Byte) (hg : body.length = 13 * h.groups.toNat) :
    (receiving a h).Completes 0 (frameOf h body) := ⟨rfl, hg, rfl⟩

/-- The frame with even samples completes with a good CRC. -/
theorem frame_completes (a : Await) (h : ScanHeader) (hg : h.groups = 4) :
    (receiving a h).Completes 0 (frame h) := frameOf_completes a h groups (by rw [hg]; decide)

theorem witness_FaultyFramesDiscardTheLine_checks :
    (⟨header 15, groups, 0⟩ : ScanFrame).crc ≠
        crc16 ([(header 15).headId, (header 15).status, (header 15).tag, (header 15).groups] ++ groups) ∧
      (let h : ScanHeader := ⟨0, 0, 15, 5⟩;
        let f : ScanFrame := frameOf h (groups ++ groups.take 13);
        (receiving await15 h).Completes 0 f ∧ f.header.headId = ((receiving await15 h).channel 0).cfg.headId ∧
          f.header.status.getLsbD 0 = false ∧
          f.header.groups.toNat ≠ ((receiving await15 h).channel 0).cfg.groups) :=
  ⟨by decide +kernel, frameOf_completes _ _ _ (by decide), by decide, by decide, by decide⟩

theorem witness_ForeignAndLateFramesAreSetAside :
    let foreign : ScanHeader := ⟨1, 0, 15, 4⟩
    let a := receiving await15 foreign
    let b := receiving await15 (header 14)
    let c := receiving .quiet (header 15)
    let d := receiving .quiet (header 16)
    (a.Runs ∧ a.InCast 0 ∧ a.Completes 0 (frame foreign) ∧ foreign.headId ≠ (a.channel 0).cfg.headId) ∧
      (b.Runs ∧ b.InCast 0 ∧ b.Completes 0 (frame (header 14)) ∧ b.Accepts 0 (frame (header 14)) ∧
        (b.channel 0).rx.await = .awaiting 15 300 15 ∧ (header 14).tag = 15#8 - 1) ∧
      (c.Runs ∧ c.InCast 0 ∧ c.Completes 0 (frame (header 15)) ∧ c.Accepts 0 (frame (header 15)) ∧
        (c.channel 0).rx.await = .quiet ∧ (c.channel 0).rx.lastExpected = some (header 15).tag) ∧
      (d.Runs ∧ d.InCast 0 ∧ d.Completes 0 (frame (header 16)) ∧ d.Accepts 0 (frame (header 16)) ∧
        (d.channel 0).rx.await = .quiet ∧ (d.channel 0).rx.lastExpected ≠ some (header 16).tag) :=
  ⟨⟨by decide, by decide, frame_completes _ _ rfl, by decide⟩,
    ⟨by decide, by decide, frame_completes _ _ rfl, by decide, by decide, by decide⟩,
    ⟨by decide, by decide, frame_completes _ _ rfl, by decide, by decide, by decide⟩,
    ⟨by decide, by decide, frame_completes _ _ rfl, by decide, by decide, by decide⟩⟩

/-- The hypotheses shared by the statements about an expected frame. -/
theorem expected_frame :
    let s := receiving await15 (header 15)
    s.Runs ∧ s.InCast 0 ∧ s.Completes 0 (frame (header 15)) ∧ s.Accepts 0 (frame (header 15)) ∧
      (s.channel 0).rx.await = .awaiting 15 300 (frame (header 15)).header.tag :=
  ⟨by decide, by decide, frame_completes _ _ rfl, by decide, by decide⟩

theorem witness_ExpectedFramesAreTaken :
    let s := receiving await15 (header 15)
    s.Runs ∧ s.InCast 0 ∧ s.Completes 0 (frame (header 15)) ∧ s.Accepts 0 (frame (header 15)) ∧
      (s.channel 0).rx.await = .awaiting 15 300 (frame (header 15)).header.tag ∧ s.Handles 0 300 :=
  ⟨expected_frame.1, expected_frame.2.1, expected_frame.2.2.1, expected_frame.2.2.2.1, expected_frame.2.2.2.2,
    by decide, by decide, ⟨0, 0, 1, false, recipe⟩, by decide, by decide⟩

theorem witness_TagMismatchesResynchronise :
    let s := receiving await15 (header 16)
    s.Runs ∧ s.InCast 0 ∧ s.Completes 0 (frame (header 16)) ∧ s.Accepts 0 (frame (header 16)) ∧
      (s.channel 0).rx.await = .awaiting 15 300 15 ∧ (frame (header 16)).header.tag ≠ 15#8 ∧
      (frame (header 16)).header.tag ≠ 15#8 - 1 :=
  ⟨by decide, by decide, frame_completes _ _ rfl, by decide, by decide, by decide, by decide⟩

theorem witness_ExpiredWaitsAreMissed :
    (receiving await15 (header 15)).Runs ∧
      ((receiving await15 (header 15)).channel 0).rx.await = .awaiting 15 300 15 ∧ (14 : Nat) ≠ 15 := by decide

theorem witness_HeadFaultsLockTheChannel :
    let h : ScanHeader := ⟨0, 1, 15, 4⟩
    let s := receiving .quiet h
    let t := receiving await15 h
    let u := s.modLp 0 fun lp => { lp with state := .hardLock .link }
    let v := t.modLp 0 fun lp => { lp with state := .hardLock .link }
    (s.Runs ∧ s.InCast 0 ∧ s.Completes 0 (frame h) ∧ h.headId = (s.channel 0).cfg.headId ∧
      h.status.getLsbD 0 = true ∧ (s.channel 0).lp.state = .active ∧ (s.channel 0).rx.await = .quiet ∧
      (s.strand 0).billet = some billet) ∧
      (t.Runs ∧ t.InCast 0 ∧ t.Completes 0 (frame h) ∧ (t.channel 0).lp.state = .active) ∧
      (u.Runs ∧ u.InCast 0 ∧ u.Completes 0 (frame h) ∧ (u.channel 0).lp.state = .hardLock .link ∧
        (u.channel 0).rx.await = .quiet) ∧
      (v.Runs ∧ v.InCast 0 ∧ v.Completes 0 (frame h) ∧ (v.channel 0).lp.state = .hardLock .link ∧
        (v.channel 0).rx.await = .awaiting 15 300 15 ∧
        ((v.strand 0).history.filter fun g => g.coord ≤ 300).getLast? = some ⟨0, 0, 1, false, recipe⟩) :=
  ⟨⟨by decide, by decide, frame_completes _ _ rfl, by decide, by decide, by decide, by decide, by decide⟩,
    ⟨by decide, by decide, frame_completes _ _ rfl, by decide⟩,
    ⟨by decide, by decide, frame_completes .quiet _ rfl, by decide, by decide⟩,
    ⟨by decide, by decide, frame_completes await15 _ rfl, by decide, by decide, by decide⟩⟩

/-- `live` awaiting line 15 with its line processor changed. -/
def losing (f : LineProcessor → LineProcessor) : State := (receiving await15 (header 15)).modLp 0 f

/-- The entry in force at line 15 of `live`. -/
def entry : HistoryEntry := ⟨0, 0, 1, false, recipe⟩

/-- A frame of which every sample is void. -/
def blind : ScanFrame := frameOf (header 15) (List.replicate 52 0)

/-- What a good frame with the expected tag shows of the face is the outcome of the obscured-line test. -/
theorem losing_shows (g : LineProcessor → LineProcessor) (body : List Byte) (hl : body.length = 52) (b : Bool)
    (hb : ((losing g).channel 0).obscures recipe (frameSamples (frameOf (header 15) body)) = b) :
    (losing g).Shows 0 15 15 recipe (.scanFrame 0 (frameOf (header 15) body)) (if b then .obscured else .clear) := by
  have hs : (losing g).InCast 0 ∧ (losing g).Completes 0 (frameOf (header 15) body) ∧
      (losing g).Accepts 0 (frameOf (header 15) body) :=
    ⟨⟨rfl, (by decide : StrandState.casting ≠ .idle)⟩, ⟨rfl, hl, rfl⟩, rfl, (by decide : (0#8).getLsbD 0 = false), rfl⟩
  cases b
  · exact ⟨_, rfl, hs.1, hs.2.1, hs.2.2, rfl, hb⟩
  · exact ⟨_, rfl, hs.1, hs.2.1, hs.2.2, rfl, hb⟩

/-- What the statement asks of every line: the part runs, line 15 is awaited, and a recipe is in force at it. -/
theorem losing_awaits (g : LineProcessor → LineProcessor) :
    (losing g).Runs ∧ ((losing g).channel 0).rx.await = .awaiting 15 300 15 ∧
      (((losing g).strandOf 0).history.filter fun h => h.coord ≤ 300).getLast? = some entry := ⟨⟨rfl, rfl⟩, rfl, rfl⟩

/-- At missed_limit 6 the sixth lost line in a row locks, and the fifth does not. -/
theorem witness_LostLinesLockTheChannel :
    (let s := losing fun lp => { lp with linkRun := 5 };
      s.Shows 0 15 15 entry.recipe (.lineWaitExpiry 0 15) .lost ∧
        (s.channel 0).lp.state = leftChannelState .active ∧ entry.recipe.missedLimit ≤ (s.channel 0).lp.linkRun + 1) ∧
      (let s := losing fun lp => { lp with linkRun := 4, obscuredRun := 1 };
        s.Shows 0 15 15 entry.recipe (.lineWaitExpiry 0 15) .lost ∧
          ¬entry.recipe.missedLimit ≤ (s.channel 0).lp.linkRun + 1 ∧ (s.channel 0).lp.obscuredRun < 2) ∧
      (let s := losing fun lp => { lp with state := .softLock .active, linkRun := 5 };
        s.Shows 0 15 15 entry.recipe (.lineWaitExpiry 0 15) .lost ∧ (s.channel 0).lp.state = .softLock .active ∧
          entry.recipe.missedLimit ≤ (s.channel 0).lp.linkRun + 1) :=
  ⟨⟨.inl rfl, by decide, by decide⟩, ⟨.inl rfl, by decide, by decide⟩, ⟨.inl rfl, by decide, by decide⟩⟩

/-- The third obscured line in a row locks softly. -/
theorem witness_LostLinesLockTheChannel_obscured :
    let s := losing fun lp => { lp with obscuredRun := 2, state := .warmup }
    s.Shows 0 15 15 entry.recipe (.scanFrame 0 blind) .obscured ∧
      (s.channel 0).lp.state = leftChannelState .warmup ∧ 2 ≤ (s.channel 0).lp.obscuredRun :=
  ⟨losing_shows _ (List.replicate 52 0) (by decide) true (by decide +kernel), by decide, by decide⟩

/-- In SOFT_LOCK, at soft_lock_max 8: the third clear line in a row leaves, the ninth line locks hard, and the eighth
stays. -/
theorem witness_LostLinesLockTheChannel_clear :
    (let s := losing fun lp => { lp with state := .softLock .active, clearRun := 2, softCount := 8 };
      s.Shows 0 15 15 entry.recipe (.scanFrame 0 (frame (header 15))) .clear ∧
        (s.channel 0).lp.state = .softLock .active ∧ 3 ≤ (s.channel 0).lp.clearRun + 1) ∧
      (let s := losing fun lp => { lp with state := .softLock .warmup, clearRun := 1, softCount := 8 };
        s.Shows 0 15 15 entry.recipe (.scanFrame 0 (frame (header 15))) .clear ∧
          (s.channel 0).lp.state = .softLock .warmup ∧ (s.channel 0).lp.clearRun + 1 < 3 ∧
          entry.recipe.softLockMax < (s.channel 0).lp.softCount + 1) ∧
      (let s := losing fun lp => { lp with state := .softLock .active, clearRun := 1, softCount := 7 };
        s.Shows 0 15 15 entry.recipe (.scanFrame 0 (frame (header 15))) .clear ∧
          (s.channel 0).lp.softCount + 1 ≤ entry.recipe.softLockMax) :=
  ⟨⟨losing_shows _ groups (by decide) false (by decide +kernel), by decide, by decide⟩,
    ⟨losing_shows _ groups (by decide) false (by decide +kernel), by decide, by decide, by decide⟩,
    ⟨losing_shows _ groups (by decide) false (by decide +kernel), by decide⟩⟩

/-- In HARD_LOCK a line that its timer or a frame settles, and one that the next trigger settles MISSED. -/
theorem witness_LostLinesLockTheChannel_hard :
    (let s := losing fun lp => { lp with state := .hardLock .head };
      s.Runs ∧ (s.channel 0).rx.await = .awaiting 15 300 15 ∧
        ((s.strandOf 0).history.filter fun h => h.coord ≤ 300).getLast? = some entry ∧
        s.Shows 0 15 15 entry.recipe (.lineWaitExpiry 0 15) .lost ∧ Sight.unprocessed .lost (s.channel 0).lp.state) ∧
      (let s := (due []).modRx 0 fun r => { r with await := await15 };
        s.Triggers 0 .encA ∧ (s.channel 0).rx.await = .awaiting 15 300 15 ∧ (s.channel 0).cfg.enabled = true ∧
          (s.channel 0).cfg.strand = 0 ∧ (s.strand 0).schedule = [] ∧
          ((s.strandOf 0).history.filter fun h => h.coord ≤ 300).getLast? = some entry ∧
          Sight.unprocessed .lost (s.channel 0).lp.state) :=
  ⟨⟨by decide, by decide, by decide, .inl rfl, trivial⟩,
    ⟨by decide, by decide, by decide, by decide, by decide, by decide, Sight.noConfusion⟩⟩

theorem witness_CoverageEntersOneLine :
    ([⟨0, .obscured, 4⟩, ⟨80, .inspected, 3⟩] : List Segment) = [⟨0, .obscured, 4⟩] ++ [⟨80, .inspected, 3⟩] ∧
      (List.replicate 63 (⟨0, .obscured, 1⟩ : Segment)).length < 64 ∧
      (List.replicate 64 (⟨0, .obscured, 1⟩ : Segment)) =
        ⟨0, .obscured, 1⟩ :: ⟨0, .obscured, 1⟩ :: List.replicate 62 ⟨0, .obscured, 1⟩ ∧
      (List.replicate 64 (⟨0, .obscured, 1⟩ : Segment)).getLast? = some ⟨0, .obscured, 1⟩ ∧
      Coverage.obscured ≠ .unavailable := by decide

theorem witness_ProcessedLinesMoveTheBaselines :
    let s := receiving await15 (header 15)
    let f := frame (header 15)
    let c := s.channel 0
    (s.Runs ∧ s.InCast 0 ∧ s.Completes 0 f ∧ s.Accepts 0 f ∧ c.rx.await = .awaiting 15 300 f.header.tag) ∧
      ((s.strand c.cfg.strand).history.filter fun h => h.coord ≤ 300).getLast? = some entry ∧
      c.lp.state = .active ∧
      100 * ((List.range (8 * c.cfg.groups)).filter fun j =>
          decide (entry.recipe.leftMargin ≤ j) && decide (j + entry.recipe.rightMargin < 8 * c.cfg.groups) &&
            !(!((frameSamples f).getD j ⟨0, true⟩).invalid && ((frameSamples f).getD j ⟨0, true⟩).value != 0 &&
              ((frameSamples f).getD j ⟨0, true⟩).value != 4095 && (c.lp.columns.getD j ⟨0, false⟩).seeded)).length <
        entry.recipe.obscurePct * (8 * c.cfg.groups - entry.recipe.leftMargin - entry.recipe.rightMargin) :=
  ⟨expected_frame, by decide, by decide, by decide +kernel⟩

/-- Four groups, of which the second is a crack across columns 8 to 15: samples of 900, residual 100. -/
def crackedGroups : List Byte :=
  let g : List Byte := [0xE8, 0x83, 0x3E, 0xE8, 0x83, 0x3E, 0xE8, 0x83, 0x3E, 0xE8, 0x83, 0x3E, 0]
  let d : List Byte := [0x84, 0x43, 0x38, 0x84, 0x43, 0x38, 0x84, 0x43, 0x38, 0x84, 0x43, 0x38, 0]
  g ++ d ++ g ++ g

/-- The frame of a line with one wide run. -/
def cracked : ScanFrame := frameOf (header 15) crackedGroups

theorem witness_WideRunsAreMarksInsideTheGate :
    let s := receiving await15 (header 15)
    (s.Runs ∧ s.InCast 0 ∧ s.Completes 0 cracked ∧ s.Accepts 0 cracked ∧
      (s.channel 0).rx.await = .awaiting 15 300 cracked.header.tag) ∧
      ((s.strand 0).history.filter fun h => h.coord ≤ 300).getLast? = some entry ∧ (s.channel 0).lp.state = .active ∧
      (s.strand 0).defects.length ≤ 64 :=
  ⟨⟨by decide, by decide, frameOf_completes _ _ _ (by decide), by decide, by decide⟩, by decide, by decide, by decide⟩

/-- The counter of channel 0 after a command, 0 where it does not answer a next state. -/
def countAfter (c : Instr) (s : State) (k : ChannelCounter) : Counter :=
  match exec c s with
  | .next t => t.channelCount 0 k
  | .fault _ | .refused _ => 0

/-- R65 to R69: the wide run of `cracked` is TRANSVERSE outside the gate, and MARK at a forecast. -/
theorem test_wide_run_is_transverse :
    countAfter (.scanFrame 0 cracked) (receiving await15 (header 15)) .transverse = 1 ∧
      countAfter (.scanFrame 0 cracked) ((receiving await15 (header 15)).modStrand 0 fun x =>
        { x with forecasts := [300] }) .mark = 1 := by decide +kernel

theorem witness_RunsJoinHitsAcrossTheBridge :
    (([(20, 52), (21, 61), (23, 61), (30, 45), (32, 47), (40, 44)] : List (Nat × Nat)).map (·.1)).Pairwise (· < ·) ∧
      ([(20, 52), (21, 61), (23, 61), (26, 45)] : List (Nat × Nat)) = [(20, 52)] ++ (21, 61) :: (23, 61) :: [(26, 45)] ∧
      23 ≤ 21 + 1 + 1 ∧ ¬26 ≤ 23 + 1 + 1 := by decide

/-- The workings of an association before any run: the tracks of the worked example. -/
def workings : Vector Work 16 := Vector.ofFn fun i => ⟨associationTable.slots[i], none, false⟩

theorem witness_RunsGoToTheNearestTrack :
    (bestCandidate 3 ⟨42, 42, 55⟩ workings allSlots = some (1, 2, 2800) ∧
      bestCandidate 3 ⟨129, 131, 51⟩ workings allSlots = none) ∧
      ((losing id).channel 0).lp.state = .active ∧
      (losing id).Shows 0 15 cracked.header.tag entry.recipe (.scanFrame 0 cracked) .clear ∧
      ((losing id).strandOf 0).billet = some billet ∧ ((losing id).strandOf 0).defects.length ≤ 64 :=
  ⟨by decide, by decide, losing_shows id crackedGroups (by decide) false (by decide +kernel), by decide, by decide⟩

end Sys2Proof.Tests
end

/-! Encoder counts: the quadrature cycle, what one count of a casting strand comes to, and R3. -/

namespace Sys2Proof.Machine

/-! ### The quadrature cycle (R2) -/

theorem flipInput_eq_pairAfter (p : Phase) (input : EncInput) : flipInput p input = pairAfter p input := by
  cases input <;> rfl

/-- Under + a change is a forward count when it leads to the next pair of the cycle. -/
theorem movesForward_plus (p q : Phase) : movesForward .plus p q = (q == forwardPhase p) := by
  obtain ⟨a, b⟩ := p
  obtain ⟨c, d⟩ := q
  revert a b c d
  decide

/-- Under − a change is a forward count when it leads to the pair before in the cycle. -/
theorem movesForward_minus (p q : Phase) : movesForward .minus p q = (p == forwardPhase q) :=
  movesForward_plus q p

/-- Where one input changes, the pair moves one place back exactly when it does not move one place on. -/
theorem pairAfter_back_iff_not_on (p : Phase) (input : EncInput) :
    (p == forwardPhase (pairAfter p input)) = !(pairAfter p input == forwardPhase p) := by
  obtain ⟨a, b⟩ := p
  cases input <;> revert a b <;> decide

/-- The model's count direction is that of the cycle. -/
theorem countsForward_eq_movesForward (sign : EncoderSign) (p : Phase) (input : EncInput) :
    countsForward sign p input = movesForward sign p (pairAfter p input) := by
  cases sign with
  | plus => rw [movesForward_plus, ← flipInput_eq_pairAfter]; rfl
  | minus => rw [movesForward_minus, pairAfter_back_iff_not_on, ← flipInput_eq_pairAfter]; rfl

/-! ### One count -/

theorem exec_encoderCount_of_runs {s : State} (h : s.Runs) (n : StrandId) (input : EncInput) :
    exec (.encoderCount n input) s = .next (s.encoderCount n input) :=
  congrArg Host.Outcome.next (whileRunning_of_runs h fun s => s.encoderCount n input)

/-- A strand that is not IDLE follows the phase, then counts in the direction of the change (R2, R3, R4). -/
theorem State.encoderCount_of_not_idle {s : State} {n : StrandId} (h : (s.strand n).state ≠ .idle) (input : EncInput) :
    s.encoderCount n input =
      let x := s.strand n
      let p := pairAfter x.phase input
      let t := s.putStrand n { x with phase := p }
      if movesForward x.cfg.sign x.phase p = true then t.forwardCount n else t.reverseCount n := by
  simp only [State.encoderCount, State.modStrand_eq, countsForward_eq_movesForward, flipInput_eq_pairAfter]
  split
  · exact absurd ‹_› h
  · rfl
  · rfl

theorem State.reverseCount_of_pos {s : State} {n : StrandId} (h : 0 < (s.strand n).travel) :
    s.reverseCount n = s.putStrand n { s.strand n with travel := (s.strand n).travel - 1 } := by
  rw [State.reverseCount, if_neg h.ne', State.modStrand_eq]

theorem State.reverseCount_of_zero {s : State} {n : StrandId} (h : (s.strand n).travel = 0) :
    s.reverseCount n =
      s.putStrand n { s.strand n with stats := (s.strand n).stats.set 1 ((s.strand n).stats[1] + 1) } := by
  rw [State.reverseCount, if_pos h, State.raiseStrand_eq]
  rfl

/-- Below H a forward count neither ends the travel (R5) nor raises H (R4). -/
theorem State.forwardCount_of_below_high {s : State} {n : StrandId} (below : (s.strand n).travel < (s.strand n).high)
    (inTravel : (s.strand n).high ≤ maxCoord) :
    s.forwardCount n = s.putStrand n { s.strand n with travel := (s.strand n).travel + 1 } := by
  have notAtEnd : ¬maxCoord ≤ (s.strand n).travel := by omega
  have notAbove : ¬(s.strand n).high < (s.strand n).travel + 1 := by omega
  simp only [State.forwardCount, if_neg notAtEnd, if_neg notAbove, State.modStrand_eq]

/-- Settles O26: the phase is written first, and the count's own rule on that state gives each clause. -/
theorem reverseCountsLowerTravelAlone : Obligations.ReverseCountsLowerTravelAlone := by
  intro s n input runs casting x p
  rw [exec_encoderCount_of_runs runs, State.encoderCount_of_not_idle casting]
  have read := s.strand_putStrand_self n { x with phase := p }
  refine ⟨fun back pos => ?_, fun back zero => ?_, fun on below inTravel => ?_⟩
  · simp only [x, p, back, Bool.false_eq_true, if_false]
    rw [State.reverseCount_of_pos (by rwa [read]), read, State.putStrand_putStrand]
  · simp only [x, p, back, Bool.false_eq_true, if_false]
    rw [State.reverseCount_of_zero (by rwa [read]), read, State.putStrand_putStrand]
  · simp only [x, p, on, if_true]
    rw [State.forwardCount_of_below_high (by rwa [read]) (by rwa [read]), read, State.putStrand_putStrand]

end Sys2Proof.Machine

/-! Scan line intake: the receiver back in HUNTING, the commands of 02 on a part that runs, the classification of a
frame outside a cast (R24) and in one (R25), and the tag test of a frame that settles no line (R27, R29). -/

namespace Sys2Proof.Machine

/-! ### The receiver back in HUNTING (R23) -/

@[simp] theorem State.channel_hunt (s : State) (m : ChannelId) :
    (s.hunt m).channel m = { s.channel m with rx := { (s.channel m).rx with framing := .hunting } } :=
  State.channel_putChannel_self ..

@[simp] theorem State.hunt_strand (s : State) (m : ChannelId) (n : StrandId) : (s.hunt m).strand n = s.strand n := rfl

theorem State.hunt_of_hunting {s : State} {m : ChannelId} (h : (s.channel m).rx.framing = .hunting) : s.hunt m = s := by
  have same : { (s.channel m).rx with framing := .hunting } = (s.channel m).rx := by rw [← h]
  rw [State.hunt, State.modRx_eq, same]
  exact s.putChannel_self m

/-- A frame that settles no line returns the receiver to HUNTING and is counted: that is its whole effect. -/
theorem State.raiseChannel_hunt (s : State) (m : ChannelId) (c : ChannelCounter) :
    (s.hunt m).raiseChannel m c = s.setAside m c := by
  rw [State.raiseChannel_eq, State.channelCount, State.channel_hunt, State.hunt, State.modRx_eq,
    State.putChannel_putChannel]
  rfl

/-! ### Frames outside a cast (R24) -/

theorem State.inCast_iff (s : State) (m : ChannelId) : s.inCast m = true ↔ s.InCast m := by
  simp [State.inCast, State.InCast, State.strandOf]

theorem State.inCast_of_not {s : State} {m : ChannelId} (h : ¬s.InCast m) : s.inCast m = false :=
  Bool.eq_false_iff.2 (mt (s.inCast_iff m).1 h)

@[simp] theorem State.inCast_hunt (s : State) (m : ChannelId) : (s.hunt m).inCast m = s.inCast m := by
  simp only [State.inCast, State.strandOf, State.channel_hunt, State.hunt_strand]

theorem State.framingFailure_hunt_of_not_inCast {s : State} {m : ChannelId} (h : ¬s.InCast m) :
    (s.hunt m).framingFailure m = s.setAside m .stray := by
  rw [State.framingFailure, State.inCast_hunt, State.inCast_of_not h, if_neg Bool.false_ne_true,
    State.raiseChannel_hunt]

theorem State.classify_hunt_of_not_inCast {s : State} {m : ChannelId} (h : ¬s.InCast m) (f : ScanFrame) :
    (s.hunt m).classify m f = s.setAside m .stray := by
  rw [State.classify, State.inCast_hunt, State.inCast_of_not h, Bool.not_false, if_pos rfl, State.raiseChannel_hunt]

/-! ### The commands of the scan link on a part that runs -/

theorem exec_syncPair (m : ChannelId) (h : ScanHeader) (s : State) : exec (.syncPair m h) s = execSyncPair m h s := rfl

theorem exec_scanFrame (m : ChannelId) (f : ScanFrame) (s : State) :
    exec (.scanFrame m f) s = execScanFrame m f s := rfl

theorem exec_scanGapTimeout (m : ChannelId) (inHeader : Bool) (s : State) :
    exec (.scanGapTimeout m inHeader) s = execScanGapTimeout m inHeader s := rfl

theorem exec_syncPair_of_hunting {s : State} {m : ChannelId} (runs : s.Runs)
    (hunting : (s.channel m).rx.framing = .hunting) (h : ScanHeader) :
    exec (.syncPair m h) s =
      .next (if groupsDelimit h then s.modRx m fun rx => { rx with framing := .receiving h } else s) := by
  rw [exec_syncPair, execSyncPair, whileRunning_of_runs runs]
  simp only [hunting]

/-- The frame in reception ends: the receiver is HUNTING again, and the CRC decides what is classified (R23, R25). -/
theorem exec_scanFrame_of_receiving {s : State} {m : ChannelId} {f : ScanFrame} (runs : s.Runs)
    (receiving : (s.channel m).rx.framing = .receiving f.header)
    (length : f.groupBytes.length = 13 * f.header.groups.toNat) :
    exec (.scanFrame m f) s =
      .next (if scanCrc f = f.crc then (s.hunt m).classify m f else (s.hunt m).framingFailure m) := by
  have inReception : frameInReception f.header f = true := by simp [frameInReception, length]
  rw [exec_scanFrame, execScanFrame, whileRunning_of_runs runs]
  simp only [receiving, inReception, if_true]

/-- A frame whose header cannot delimit it fails with the header (R23). -/
theorem exec_scanFrame_of_hunting {s : State} {m : ChannelId} {f : ScanFrame} (runs : s.Runs)
    (hunting : (s.channel m).rx.framing = .hunting) (unusable : groupsDelimit f.header = false) :
    exec (.scanFrame m f) s = .next ((s.hunt m).framingFailure m) := by
  rw [exec_scanFrame, execScanFrame, whileRunning_of_runs runs, State.hunt_of_hunting hunting]
  simp only [hunting, unusable, Bool.false_eq_true, if_false]

/-- A gap behind the header finds the receiver RECEIVING (R23). -/
theorem exec_scanGapTimeout_of_receiving {s : State} {m : ChannelId} {h : ScanHeader} (runs : s.Runs)
    (receiving : (s.channel m).rx.framing = .receiving h) :
    exec (.scanGapTimeout m false) s = .next ((s.hunt m).framingFailure m) := by
  rw [exec_scanGapTimeout, execScanGapTimeout, whileRunning_of_runs runs]
  simp only [receiving, Bool.false_eq_true, if_false]

/-- A gap in the header finds it HUNTING (log 6). -/
theorem exec_scanGapTimeout_of_hunting {s : State} {m : ChannelId} (runs : s.Runs)
    (hunting : (s.channel m).rx.framing = .hunting) :
    exec (.scanGapTimeout m true) s = .next ((s.hunt m).framingFailure m) := by
  rw [exec_scanGapTimeout, execScanGapTimeout, whileRunning_of_runs runs, State.hunt_of_hunting hunting]
  simp only [hunting, if_true]

theorem groupsDelimit_iff (h : ScanHeader) : groupsDelimit h = true ↔ 4 ≤ h.groups.toNat ∧ h.groups.toNat ≤ 32 := by
  simp [groupsDelimit]

/-- Settles O48: each frame or gap reaches the classification with the receiver HUNTING, and outside a cast both a
complete frame and a framing failure are set aside. -/
theorem framesOutsideACastAreStray : Obligations.FramesOutsideACastAreStray := by
  intro s m runs
  refine ⟨fun h hunting atLeast atMost => ?_,
    fun outside => ⟨fun f receiving length => ?_, fun f hunting unusable => ?_, fun h receiving => ?_, fun hunting => ?_⟩⟩
  · rw [exec_syncPair_of_hunting runs hunting, if_pos ((groupsDelimit_iff h).2 ⟨atLeast, atMost⟩), State.modRx_eq]
  · rw [exec_scanFrame_of_receiving runs receiving length, State.classify_hunt_of_not_inCast outside,
      State.framingFailure_hunt_of_not_inCast outside, ite_self]
  · have undelimited : groupsDelimit f.header = false := by
      rw [Bool.eq_false_iff, Ne, groupsDelimit_iff]
      omega
    rw [exec_scanFrame_of_hunting runs hunting undelimited, State.framingFailure_hunt_of_not_inCast outside]
  · rw [exec_scanGapTimeout_of_receiving runs receiving, State.framingFailure_hunt_of_not_inCast outside]
  · rw [exec_scanGapTimeout_of_hunting runs hunting, State.framingFailure_hunt_of_not_inCast outside]

/-! ### Complete frames in a cast (R25) -/

/-- A frame that completes on a part that runs is classified (R25, check 1 passed). -/
theorem exec_scanFrame_of_completes {s : State} {m : ChannelId} {f : ScanFrame} (runs : s.Runs)
    (completes : s.Completes m f) : exec (.scanFrame m f) s = .next ((s.hunt m).classify m f) := by
  obtain ⟨receiving, length, crc⟩ := completes
  have passes : scanCrc f = f.crc := crc.symm
  rw [exec_scanFrame_of_receiving runs receiving length, if_pos passes]

/-- R25 check 2: a frame with a foreign head id is STRAY, whatever the await. -/
theorem State.classify_hunt_of_foreign {s : State} {m : ChannelId} {f : ScanFrame} (cast : s.InCast m)
    (foreign : f.header.headId ≠ (s.channel m).cfg.headId) : (s.hunt m).classify m f = s.setAside m .stray := by
  simp only [State.classify, State.inCast_hunt, (s.inCast_iff m).2 cast, State.channel_hunt, Bool.not_true,
    Bool.false_eq_true, if_false, if_pos foreign, State.raiseChannel_hunt]

/-- A frame that passes checks 2 to 4 of R25 is judged by its tag. -/
theorem State.classify_hunt_of_accepts {s : State} {m : ChannelId} {f : ScanFrame} (cast : s.InCast m)
    (accepts : s.Accepts m f) : (s.hunt m).classify m f = (s.hunt m).testTag m f := by
  obtain ⟨own, good, groups⟩ := accepts
  simp only [State.classify, State.inCast_hunt, (s.inCast_iff m).2 cast, State.channel_hunt, Bool.not_true,
    Bool.false_eq_true, if_false, own, good, groups, ne_eq, not_true_eq_false]

/-! ### Tags that settle no line (R27, R29) -/

/-- R27: the tag before the expected one, which is not the expected one, is LATE while AWAITING. -/
theorem State.testTag_hunt_of_previous {s : State} {m : ChannelId} {f : ScanFrame} {k coord : Nat} {expected : Byte}
    (awaiting : (s.channel m).rx.await = .awaiting k coord expected) (previous : f.header.tag = expected - 1) :
    (s.hunt m).testTag m f = s.setAside m .late := by
  have other : expected - 1 ≠ expected := by bv_omega
  simp only [State.testTag, State.channel_hunt, awaiting, previous, if_neg other, if_true, State.raiseChannel_hunt]

/-- R29: in QUIET a frame is LATE when its tag is the last expected one, and otherwise STRAY. -/
theorem State.testTag_hunt_of_quiet {s : State} {m : ChannelId} (f : ScanFrame)
    (quiet : (s.channel m).rx.await = .quiet) :
    (s.hunt m).testTag m f =
      s.setAside m (if (s.channel m).rx.lastExpected = some f.header.tag then .late else .stray) := by
  simp only [State.testTag, State.channel_hunt, quiet, State.raiseChannel_hunt]
  split <;> rfl

/-- Settles O50: the head id decides first, and then the tag, against the await's or the last expected one. -/
theorem foreignAndLateFramesAreSetAside : Obligations.ForeignAndLateFramesAreSetAside := by
  intro s m f runs cast completes
  rw [exec_scanFrame_of_completes runs completes]
  refine ⟨fun foreign => ?_, fun accepts => ?_⟩
  · rw [State.classify_hunt_of_foreign cast foreign]
  · rw [State.classify_hunt_of_accepts cast accepts]
    refine ⟨fun k coord expected awaiting previous => ?_, fun quiet => ?_⟩
    · rw [State.testTag_hunt_of_previous awaiting previous]
    · rw [State.testTag_hunt_of_quiet f quiet]
      exact ⟨fun last => by rw [if_pos last], fun notLast => by rw [if_neg notLast]⟩

end Sys2Proof.Machine

/-! Grading (07, R138): what the first row that holds comes to for one report, and that every command keeps the
reports of the queue graded. The queue changes in three places only, the push of a built report (R140, R141),
TAKE_BILLET (R173) and a restart (R142); every other command leaves it as it is. -/

namespace Sys2Proof.Machine

/-! ### The rows of R138 -/

theorem meets_iff (limit value : Nat) : meets limit value = true ↔ limit ≠ 0 ∧ limit ≤ value := by simp [meets]

theorem BilletReport.rejects_iff (r : BilletReport) : r.Rejects ↔ r.faces.any (faceRejects r.limits) = true := by
  simp only [BilletReport.Rejects, List.any_eq_true, faceRejects, Bool.or_eq_true, meets_iff, or_assoc]

theorem BilletReport.unverifies_iff (r : BilletReport) :
    r.Unverifies ↔
      (r.faces.any (faceUncovered r.limits) || r.flags.defectsDropped || r.flags.stopped) = true := by
  simp only [BilletReport.Unverifies, List.any_eq_true, faceUncovered, decide_eq_true_eq, Bool.or_eq_true, or_assoc]

theorem BilletReport.conditions_iff (r : BilletReport) :
    r.Conditions ↔ r.faces.any (faceConditions r.limits) = true := by
  simp only [BilletReport.Conditions, List.any_eq_true, faceConditions, Bool.or_eq_true, meets_iff]

/-- The grade that `gradeOf` gives is the first row of R138 that holds. -/
theorem BilletReport.gradedInOrder_of_grade {r : BilletReport} (h : r.grade = gradeOf r.limits r.faces r.flags) :
    r.GradedInOrder := by
  unfold BilletReport.GradedInOrder
  rw [r.rejects_iff, r.unverifies_iff, r.conditions_iff, h, gradeOf]
  split
  next rejects => simp [rejects]
  next passes =>
    split
    next unverified => simp [passes, unverified]
    next verified =>
      split
      next conditions => simp [passes, verified, conditions]
      next clean => simp [passes, verified, clean]

theorem buildReport_gradedInOrder (n : StrandId) (um : Nat) (b : OpenBillet) (tail : Nat) (stopped : Bool)
    (entries : List HistoryEntry) (faces : List FaceSummary) (closing : List DefectRecord) :
    (buildReport n um b tail stopped entries faces closing).GradedInOrder := BilletReport.gradedInOrder_of_grade rfl

/-- PRIOR_LOSS, set after the grading (R141), takes no part in it. -/
theorem BilletReport.GradedInOrder.withPriorLoss {r : BilletReport} (h : r.GradedInOrder) :
    (withPriorLoss r).GradedInOrder := h

/-! ### The report queue (R140, R141) -/

section
variable {s t : State}

theorem State.ReportsGraded.of_rq (h : s.ReportsGraded) (same : t.rq = s.rq) : t.ReportsGraded := by
  rw [State.ReportsGraded, same]
  exact h

theorem State.ReportsGraded.of_empty (empty : t.rq = []) : t.ReportsGraded := by simp [State.ReportsGraded, empty]

/-- A queue that lost its oldest report. -/
theorem State.ReportsGraded.of_rest (h : s.ReportsGraded) {old : BilletReport} {rest : List BilletReport}
    (held : s.rq = old :: rest) (left : t.rq = rest) : t.ReportsGraded := fun r hr =>
  h r (held ▸ List.mem_cons_of_mem old (left ▸ hr))

theorem State.ReportsGraded.offer (h : s.ReportsGraded) (k : NoticeKind) (body : List Byte) :
    (s.offer k body).ReportsGraded := h.of_rq (s.offer_rq k body)

theorem State.ReportsGraded.modStrand (h : s.ReportsGraded) (n : StrandId) (f : Strand → Strand) :
    (s.modStrand n f).ReportsGraded := h.of_rq rfl

theorem State.ReportsGraded.raiseStrand (h : s.ReportsGraded) (n : StrandId) (c : StrandCounter) (k : Nat) :
    (s.raiseStrand n c k).ReportsGraded := h.of_rq rfl

theorem State.ReportsGraded.drawn (h : s.ReportsGraded) (k : Nat) : (s.drawn k).ReportsGraded := h.of_rq rfl

theorem State.ReportsGraded.modHli (h : s.ReportsGraded) (f : Hli → Hli) : (s.modHli f).ReportsGraded := h.of_rq rfl

theorem State.ReportsGraded.modSup (h : s.ReportsGraded) (f : Supervisor → Supervisor) :
    (s.modSup f).ReportsGraded := h.of_rq rfl

theorem State.ReportsGraded.modSlot (h : s.ReportsGraded) (i : SlotId) (f : Slot → Slot) :
    (s.modSlot i f).ReportsGraded := h.of_rq rfl

theorem State.ReportsGraded.modSlots (h : s.ReportsGraded) (f : Slot → Slot) : (s.modSlots f).ReportsGraded :=
  h.of_rq (s.modSlots_rq f)

theorem State.ReportsGraded.setOp (h : s.ReportsGraded) (op : StoreOp) : (s.setOp op).ReportsGraded := h.of_rq rfl

theorem State.ReportsGraded.addReport (h : s.ReportsGraded) {rep : BilletReport} (graded : rep.GradedInOrder) :
    (s.addReport rep).ReportsGraded := by
  refine State.ReportsGraded.offer (fun r hr => ?_) _ _
  obtain old | rfl : r ∈ s.rq ∨ r = rep := by simpa using hr
  · exact h r old
  · exact graded

theorem State.ReportsGraded.discardOldest (h : s.ReportsGraded) : s.discardOldest.ReportsGraded := by
  unfold State.discardOldest
  split
  · exact h
  next old rest held => exact (h.of_rest held rfl).offer _ _

theorem State.ReportsGraded.pushReport (h : s.ReportsGraded) {rep : BilletReport} (graded : rep.GradedInOrder) :
    (s.pushReport rep).ReportsGraded := by
  unfold State.pushReport
  split
  · exact h.addReport graded
  · exact h.discardOldest.addReport graded.withPriorLoss

/-! ### Lines, and events handed to the channels of a strand -/

theorem LineKept.rq_eq {m : ChannelId} (kept : LineKept m s t) : t.rq = s.rq := by
  obtain ⟨-, -, -, -, same, -⟩ := kept
  exact same

theorem State.ReportsGraded.of_line (h : s.ReportsGraded) {m : ChannelId} (kept : LineKept m s t) : t.ReportsGraded :=
  h.of_rq kept.rq_eq

theorem State.ReportsGraded.channels (h : s.ReportsGraded) (ms : List ChannelId) {f : State → ChannelId → State}
    (kept : ∀ u m, LineKept m u (f u m)) : (ms.foldl f s).ReportsGraded :=
  foldl_keeps ms s h fun u m _ hu => hu.of_line (kept u m)

theorem State.ReportsGraded.eachChannel (h : s.ReportsGraded) (n : StrandId) {f : ChannelId → State → State}
    (kept : ∀ u m, LineKept m u (f m u)) : (s.eachChannel n f).ReportsGraded :=
  (h.drawn 1).channels _ fun u m => kept u m

theorem LineKept.releaseChannel (m : ChannelId) (s : State) : LineKept m s (s.releaseChannel m) := by
  have released : LineKept m s ((s.modLp m releasedLp).modTt m freeTable) :=
    (LineKept.modLp m s _).trans (.modTt m _ _)
  unfold State.releaseChannel
  dsimp only
  split
  · exact released.trans (.enterHardLock m _ _ _)
  · exact released.trans (.lockNotice m _ _ _ _ _)

/-! ### Closing billets, stops and cuts -/

theorem State.ReportsGraded.countClose (h : s.ReportsGraded) (n : StrandId) (g : Grade) (closing : List DefectRecord) :
    (s.countClose n g closing).ReportsGraded :=
  foldl_keeps _ _ ((h.raiseStrand n _ _).raiseStrand n _ _) fun _ _ _ hu => hu.raiseStrand n _ _

/-- A close pushes the report that it builds and grades (R127 steps 3 to 7). -/
theorem State.ReportsGraded.closeBillet (h : s.ReportsGraded) (n : StrandId) (tail : Nat) (stopped : Bool)
    (closing : List DefectRecord) : (s.closeBillet n tail stopped closing).ReportsGraded := by
  unfold State.closeBillet
  split
  · exact h
  · have taken := h.channels (s.channelsOf n) fun u m => .takeCoverage m u (s.strand n).cfg.countsPerLine tail
    exact ((taken.modStrand n _).countClose n _ _).pushReport (buildReport_gradedInOrder ..)

theorem State.ReportsGraded.strandToIdle (h : s.ReportsGraded) (n : StrandId) (reason : StrandReason) :
    (s.strandToIdle n reason).ReportsGraded := (h.modStrand n _).offer _ _

theorem State.ReportsGraded.stopStrand (h : s.ReportsGraded) (n : StrandId) (reason : StrandReason) :
    (s.stopStrand n reason).ReportsGraded := by
  have abandoned := h.channels (s.channelsOf n) fun u m => .abandon m u
  have flushed := abandoned.eachChannel n fun u m => .flush m u
  unfold State.stopStrand
  exact ((flushed.closeBillet n _ true _).eachChannel n fun u m => .channelToIdle m u).strandToIdle n reason

theorem State.ReportsGraded.closeAtCut (h : s.ReportsGraded) (n : StrandId) (k : Nat) :
    (s.closeAtCut n k).ReportsGraded := by
  have taken : (s.takeCut n k).ReportsGraded := (h.raiseStrand n _ _).modStrand n _
  have parted := taken.channels ((s.takeCut n k).channelsOf n) fun u m => .splitTracks m u k
  unfold State.closeAtCut
  exact ((parted.modStrand n _).closeBillet n k false _).modStrand n _

theorem State.ReportsGraded.endFinishing (h : s.ReportsGraded) (n : StrandId) : (s.endFinishing n).ReportsGraded := by
  have discarded : (s.discardTail n).ReportsGraded := (h.raiseStrand n _ _).modStrand n _
  have freed := discarded.channels ((s.discardTail n).channelsOf n) fun u m =>
    (LineKept.abandon m u).trans (.modTt m _ freeTable)
  unfold State.endFinishing
  exact (freed.eachChannel n fun u m => .channelToIdle m u).strandToIdle n _

theorem State.ReportsGraded.openBillet (h : s.ReportsGraded) (n : StrandId) (head : Nat) (first : Bool) :
    (s.openBillet n head first).ReportsGraded := h.modStrand n _

theorem State.ReportsGraded.acceptCut (h : s.ReportsGraded) (n : StrandId) (k : Nat) :
    (s.acceptCut n k).ReportsGraded := by
  have closed := h.closeAtCut n k
  unfold State.acceptCut
  dsimp only
  split
  · exact closed.endFinishing n
  all_goals exact closed.openBillet n k false

theorem State.ReportsGraded.cut (h : s.ReportsGraded) (n : StrandId) : (s.cut n).ReportsGraded := by
  unfold State.cut
  split
  iterate 3 exact h.raiseStrand n _ _
  exact h.acceptCut n _

/-! ### Encoder counts and mould strokes -/

theorem State.ReportsGraded.applyEntry (h : s.ReportsGraded) (n : StrandId) (line : Nat) (before : Option Recipe)
    (e : ScheduleEntry) : (s.applyEntry n line before e).ReportsGraded := by
  unfold State.applyEntry
  dsimp only
  split
  · exact (h.modStrand n _).offer _ _
  all_goals exact h.offer _ _

theorem State.ReportsGraded.lineTrigger (h : s.ReportsGraded) (n : StrandId) : (s.lineTrigger n).ReportsGraded := by
  have triggered := (h.modStrand n triggeredStrand).raiseStrand n .triggers 1
  have applied : (((s.modStrand n triggeredStrand).raiseStrand n .triggers).applySchedule n
      (s.strand n).nextTrigger).ReportsGraded :=
    foldl_keeps _ _ (triggered.modStrand n _) fun _ e _ hu => hu.applyEntry n _ _ e
  exact applied.eachChannel n fun u m => .takeTrigger m u _ _ _

/-- Only the stop at the end of travel pushes a report (R5). -/
theorem State.ReportsGraded.forwardCount (h : s.ReportsGraded) (n : StrandId) : (s.forwardCount n).ReportsGraded := by
  unfold State.forwardCount
  dsimp only
  split
  · exact h.stopStrand n _
  split
  · unfold State.highRaised
    dsimp only
    split
    · exact ((h.modStrand n _).modStrand n _).lineTrigger n
    · exact (h.modStrand n _).modStrand n _
  · exact h.modStrand n _

theorem State.ReportsGraded.reverseCount (h : s.ReportsGraded) (n : StrandId) : (s.reverseCount n).ReportsGraded := by
  unfold State.reverseCount
  split
  · exact h.raiseStrand n _ _
  · exact h.modStrand n _

theorem State.ReportsGraded.encoderCount (h : s.ReportsGraded) (n : StrandId) (input : EncInput) :
    (s.encoderCount n input).ReportsGraded := by
  unfold State.encoderCount
  dsimp only
  split
  · exact h.modStrand n _
  all_goals
    split
    · exact (h.modStrand n _).forwardCount n
    · exact (h.modStrand n _).reverseCount n

theorem State.ReportsGraded.mouldStroke (h : s.ReportsGraded) (n : StrandId) : (s.mouldStroke n).ReportsGraded := by
  unfold State.mouldStroke
  dsimp only
  split
  · exact (h.modStrand n _).raiseStrand n _ _
  · exact (h.raiseStrand n _ _).modStrand n _

/-! ### The host receiver -/

theorem State.ReportsGraded.abandonFrame (h : s.ReportsGraded) (rx : HostRx) : (s.abandonFrame rx).ReportsGraded := by
  obtain ⟨-, same⟩ | ⟨-, abandoned⟩ := s.abandonFrame_cases rx
  · rwa [same]
  · rw [abandoned]
    exact h.of_rq rfl

theorem State.ReportsGraded.acceptFrame (h : s.ReportsGraded) (f : HostFrame) : (s.acceptFrame f).ReportsGraded := by
  unfold State.acceptFrame
  split <;> exact h.of_rq rfl

/-! ### Restarts (R142) -/

theorem State.clearCounts_rq (s : State) (cause : RestartCause) : (s.clearCounts cause).rq = s.rq := by
  unfold State.clearCounts
  split <;> rfl

theorem State.ReportsGraded.beginHold (h : s.ReportsGraded) : s.beginHold.ReportsGraded := by
  unfold State.beginHold
  split
  · exact h
  · exact .of_empty (State.clearCounts_rq _ _)

theorem State.ReportsGraded.supplyHold (h : s.ReportsGraded) : s.supplyHold.ReportsGraded :=
  (h.modSup _).beginHold

theorem State.ReportsGraded.supplyRelease (h : s.ReportsGraded) : s.supplyRelease.ReportsGraded := h.modSup _

theorem State.ReportsGraded.releaseRestart (h : s.ReportsGraded) (pins : ReleasePins) :
    (s.releaseRestart pins).ReportsGraded := h.of_rq (State.clearCounts_rq _ _)

end

/-! ### Requests -/

/-- The effect of a handled request keeps the reports graded. -/
def Handled.KeepsGrades (x : Handled) : Prop := ∀ u : State, u.ReportsGraded → (x.effect u).ReportsGraded

theorem Handled.KeepsGrades.refuse (c : ResultCode) : (refuse c).KeepsGrades := fun _ h => h

theorem Handled.KeepsGrades.granted {more : List Byte} {effect : State → State}
    (keeps : ∀ u : State, u.ReportsGraded → (effect u).ReportsGraded) : (granted more effect).KeepsGrades := keeps

/-- An effect that leaves the queue as it is. -/
theorem Handled.KeepsGrades.of_rq {more : List Byte} {effect : State → State} (same : ∀ u, (effect u).rq = u.rq) :
    (Machine.granted more effect).KeepsGrades := fun u h => h.of_rq (same u)

theorem State.ReportsGraded.handled {s : State} (h : s.ReportsGraded) (f : HostFrame) {x : Handled}
    (keeps : x.KeepsGrades) : (s.handled f x).ReportsGraded :=
  (keeps ((s.take f).reply f x.body) (h.of_rq rfl)).of_rq rfl

theorem keepsGrades_handleSetStrand (b : List Byte) (s : State) : (handleSetStrand b s).KeepsGrades := by
  unfold handleSetStrand
  split
  · split
    · exact .of_rq fun _ => rfl
    · exact .refuse _
  · exact .refuse _

theorem keepsGrades_handleSetChannel (b : List Byte) (s : State) : (handleSetChannel b s).KeepsGrades := by
  unfold handleSetChannel
  split
  · split
    · exact .refuse _
    split
    · exact .refuse _
    · exact .of_rq fun _ => rfl
  · exact .refuse _

theorem State.ReportsGraded.startStrand {s : State} (h : s.ReportsGraded) (n : StrandId) (e : HistoryEntry) :
    (s.startStrand n e).ReportsGraded := by
  have afresh := foldl_keeps (P := State.ReportsGraded) (f := fun t m => t.modChannel m startedChannel)
    (allChannels.filter fun m => ((s.modStrand n (startedStrand e)).channel m).cfg.strand == n) _
    (h.modStrand n (startedStrand e)) fun _ _ _ hu => hu.of_rq rfl
  exact (afresh.openBillet n 0 true).offer _ _

theorem keepsGrades_handleStartStrand (b : List Byte) (s : State) : (handleStartStrand b s).KeepsGrades := by
  unfold handleStartStrand
  split
  · split
    · exact .refuse _
    split
    · exact .refuse _
    · exact .refuse _
    split
    · exact .granted fun _ h => h.startStrand _ _
    · exact .refuse _
  · exact .refuse _

theorem keepsGrades_handleFinishStrand (b : List Byte) (s : State) : (handleFinishStrand b s).KeepsGrades := by
  unfold handleFinishStrand
  split
  · exact .refuse _
  split
  · exact .refuse _
  · exact .granted fun _ h => (h.modStrand _ _).offer _ _
  · exact .of_rq fun _ => rfl

theorem keepsGrades_handleStopStrand (b : List Byte) (s : State) : (handleStopStrand b s).KeepsGrades := by
  unfold handleStopStrand
  split
  · exact .refuse _
  split
  · exact .of_rq fun _ => rfl
  all_goals exact .granted fun _ h => h.stopStrand _ _

theorem keepsGrades_handleCutStrand (b : List Byte) (s : State) : (handleCutStrand b s).KeepsGrades := by
  unfold handleCutStrand
  split
  · exact .refuse _
  · exact .granted fun _ h => h.cut _

theorem keepsGrades_handleScheduleGrade (b : List Byte) (s : State) : (handleScheduleGrade b s).KeepsGrades := by
  unfold handleScheduleGrade
  split
  · dsimp only
    split
    · exact .refuse _
    split
    · exact .refuse _
    split
    · exact .refuse _
    · exact .of_rq fun _ => rfl
  · exact .refuse _

theorem keepsGrades_handleClearSchedule (b : List Byte) (s : State) : (handleClearSchedule b s).KeepsGrades := by
  unfold handleClearSchedule
  split
  · exact .refuse _
  · exact .of_rq fun _ => rfl

theorem keepsGrades_handleReleaseChannel (b : List Byte) (s : State) : (handleReleaseChannel b s).KeepsGrades := by
  unfold handleReleaseChannel
  split
  · exact .refuse _
  split
  · exact .of_rq fun u => (LineKept.releaseChannel _ u).rq_eq
  · exact .refuse _

theorem keepsGrades_handleStoreRecipe (b : List Byte) (s : State) : (handleStoreRecipe b s).KeepsGrades := by
  unfold handleStoreRecipe
  split
  · split
    · exact .refuse _
    split
    · exact .refuse _
    · exact .of_rq fun _ => rfl
  · exact .refuse _

theorem keepsGrades_handleReadRecipe (b : List Byte) (s : State) : (handleReadRecipe b s).KeepsGrades := by
  unfold handleReadRecipe
  split
  · exact .refuse _
  split
  · exact .refuse _
  · exact .refuse _
  · exact .of_rq fun _ => rfl

theorem keepsGrades_handleFreezeRecipe (b : List Byte) (s : State) : (handleFreezeRecipe b s).KeepsGrades := by
  unfold handleFreezeRecipe
  split
  · exact .refuse _
  split
  · exact .refuse _
  · exact .refuse _
  split
  · exact .of_rq fun _ => rfl
  split
  · exact .refuse _
  · exact .of_rq fun _ => rfl

theorem keepsGrades_handleClearStore (b : List Byte) (s : State) : (handleClearStore b s).KeepsGrades := by
  unfold handleClearStore
  split
  · exact .refuse _
  split
  · exact .refuse _
  · exact .granted fun _ h => (h.modSlots _).setOp _

/-- The zeroing of a counter group leaves the report queue (R180). -/
theorem State.group_clear_rq {s : State} {group number : Nat} {g : Group} (named : s.group group number = some g)
    (u : State) : (g.clear u).rq = u.rq := by
  unfold State.group at named
  split at named
  · obtain ⟨m, -, rfl⟩ := Option.map_eq_some_iff.1 named
    rfl
  · obtain ⟨n, -, rfl⟩ := Option.map_eq_some_iff.1 named
    rfl
  · obtain rfl := Option.some.inj named
    rfl
  · exact nomatch named

/-! ### Every command -/

/-- The state that a command answers, if it answers one, has its reports graded. -/
def NextGraded (o : Host.Outcome State Fault Refusal) : Prop := ∀ t, o = .next t → t.ReportsGraded

section
variable {s : State}

theorem NextGraded.next {t : State} (h : t.ReportsGraded) : NextGraded (.next t) := by
  rintro _ ⟨⟩
  exact h

/-- An event of a block other than SUP changes nothing while the part does not run. -/
theorem NextGraded.whileRunning (h : s.ReportsGraded) {f : State → State} (runs : (f s).ReportsGraded) :
    NextGraded (.next (whileRunning s f)) := by
  refine .next ?_
  unfold Machine.whileRunning
  split
  · exact runs
  · exact h

/-- A request changes nothing, is handled by its rule, or is refused for its length. -/
theorem NextGraded.request (h : s.ReportsGraded) {kind length : Nat} {handle : List Byte → State → Handled}
    (keeps : ∀ b t, t.ReportsGraded → (handle b t).KeepsGrades) :
    NextGraded (.next (s.request kind length handle)) := by
  refine .next ?_
  obtain unmet | ⟨f, -, -, -, ⟨taken, -⟩ | ⟨refused, -⟩⟩ := s.request_cases kind length handle
  · rwa [unmet]
  · rw [taken]
    exact h.handled f (keeps f.body (s.take f) (h.of_rq rfl))
  · rw [refused]
    exact h.handled f (.refuse _)

/-! #### Commands of the scan link -/

theorem nextGraded_syncPair (h : s.ReportsGraded) (m : ChannelId) (x : ScanHeader) :
    NextGraded (execSyncPair m x s) := by
  refine .whileRunning h ?_
  split
  · split
    · exact h.of_rq rfl
    · exact h
  · exact h

theorem nextGraded_scanFrame (h : s.ReportsGraded) (m : ChannelId) (f : ScanFrame) :
    NextGraded (execScanFrame m f s) := by
  refine .whileRunning h ?_
  split
  · split
    · exact h
    · exact h.of_line (.framingFailure m s)
  · split
    · split
      · exact h.of_line ((LineKept.modRx m s _).trans (.classify m _ f))
      · exact h.of_line ((LineKept.modRx m s _).trans (.framingFailure m _))
    · exact h

theorem nextGraded_scanGapTimeout (h : s.ReportsGraded) (m : ChannelId) (inHeader : Bool) :
    NextGraded (execScanGapTimeout m inHeader s) := by
  refine .whileRunning h ?_
  split
  · split
    · exact h.of_line (.framingFailure m s)
    · exact h
  · split
    · exact h
    · exact h.of_line ((LineKept.modRx m s _).trans (.framingFailure m _))

theorem nextGraded_lineWaitExpiry (h : s.ReportsGraded) (m : ChannelId) (k : Nat) :
    NextGraded (execLineWaitExpiry m k s) := by
  refine .whileRunning h ?_
  split
  · exact h
  · split
    · exact h.of_line (.settleMissed m s)
    · exact h

/-! #### Commands of the strands -/

theorem nextGraded_oscEdge (h : s.ReportsGraded) (n : StrandId) : NextGraded (execOscEdge n s) := by
  refine .whileRunning h ?_
  dsimp only
  split
  · exact h.modStrand n _
  all_goals exact (h.modStrand n _).mouldStroke n

/-! #### Commands of the host link -/

theorem nextGraded_startByte (h : s.ReportsGraded) : NextGraded (execStartByte s) := by
  refine .whileRunning h ?_
  split
  · exact h.of_rq rfl
  · exact h

theorem nextGraded_hostFrame (h : s.ReportsGraded) (f : HostFrame) (crc : BitVec 16) :
    NextGraded (execHostFrame f crc s) := by
  refine .whileRunning h ?_
  split
  · split
    · exact h.abandonFrame _
    split
    · exact (h.modHli _).acceptFrame f
    · exact h.abandonFrame _
  · exact h

theorem nextGraded_hostFrameBad (h : s.ReportsGraded) (why : BadHostFrame) : NextGraded (execHostFrameBad why s) := by
  refine .whileRunning h ?_
  cases why with
  | characterError received =>
    dsimp only
    split
    · exact h.abandonFrame _
    · exact h
  | badCrc => exact h.abandonFrame _
  | overLength length =>
    dsimp only
    split
    · exact h.abandonFrame _
    · exact h

theorem nextGraded_transmitComplete (h : s.ReportsGraded) : NextGraded (execTransmitComplete s) := by
  refine .whileRunning h ?_
  split
  · exact h.beginHold
  · exact h.of_rq rfl

theorem nextGraded_unknownKind (h : s.ReportsGraded) : NextGraded (execUnknownKind s) := by
  refine .next ?_
  split
  · exact h
  · split
    · exact h.handled _ (.refuse _)
    · exact h

theorem nextGraded_getStatus (h : s.ReportsGraded) : NextGraded (execGetStatus s) := by
  refine .request h fun b t _ => ?_
  split
  · exact .of_rq fun _ => rfl
  · exact .refuse _

theorem nextGraded_getTracks (h : s.ReportsGraded) : NextGraded (execGetTracks s) := by
  refine .request h fun b t _ => ?_
  split
  · exact .of_rq fun _ => rfl
  · exact .refuse _

theorem nextGraded_getStats (h : s.ReportsGraded) : NextGraded (execGetStats s) := by
  refine .request h fun b t _ => ?_
  split
  next g clear named _ =>
    cases clear with
    | true => exact .of_rq fun u => State.group_clear_rq named u
    | false => exact .of_rq fun _ => rfl
  · exact .refuse _

/-- TAKE_BILLET removes the oldest report and leaves the others (R173). -/
theorem nextGraded_takeBillet (h : s.ReportsGraded) : NextGraded (execTakeBillet s) := by
  refine .request h fun b t graded => ?_
  split
  · exact .refuse _
  next rep rest held => exact .granted fun _ _ => graded.of_rest held rfl

/-! #### Commands of the recipe store -/

theorem nextGraded_storeComplete (h : s.ReportsGraded) (verified : Bool) :
    NextGraded (execStoreComplete verified s) := by
  refine .whileRunning h ?_
  split
  · exact ((h.modSlot _ _).setOp _).offer _ _
  all_goals exact h

theorem nextGraded_freezeComplete (h : s.ReportsGraded) (verified : Bool) :
    NextGraded (execFreezeComplete verified s) := by
  refine .whileRunning h ?_
  split
  · exact ((h.modSlot _ _).setOp _).offer _ _
  all_goals exact h

theorem nextGraded_clearComplete (h : s.ReportsGraded) : NextGraded (execClearComplete s) := by
  refine .whileRunning h ?_
  split
  · exact ((h.modSlots _).setOp _).offer _ _
  all_goals exact h

/-! #### Commands of the supervisor -/

theorem nextGraded_hostRestart (h : s.ReportsGraded) : NextGraded (execHostRestart s) := by
  refine .whileRunning h ?_
  split
  · exact h.beginHold
  · exact h

theorem nextGraded_supplyHold (h : s.ReportsGraded) : NextGraded (execSupplyHold s) := by
  refine .next ?_
  split
  · exact h.supplyHold
  · exact h

theorem nextGraded_supplyRelease (h : s.ReportsGraded) : NextGraded (execSupplyRelease s) := by
  refine .next ?_
  split
  · exact h.supplyRelease
  · exact h

theorem nextGraded_supplySample (h : s.ReportsGraded) (isBelow : Bool) : NextGraded (execSupplySample isBelow s) := by
  refine .next ?_
  split
  · split
    · exact h.supplyHold
    · exact h.modSup _
  · exact h.modSup _
  · split
    · exact h.supplyRelease
    · exact h.modSup _
  · exact h.modSup _

theorem nextGraded_restartRelease (h : s.ReportsGraded) (pins : ReleasePins) :
    NextGraded (execRestartRelease pins s) := by
  refine .next ?_
  split
  · exact h.releaseRestart pins
  · exact h

theorem exec_nextGraded (c : Instr) (h : s.ReportsGraded) : NextGraded (exec c s) := by
  cases c with
  | encoderCount n input => exact .whileRunning h (h.encoderCount n input)
  | bothInputsChange n => exact .whileRunning h (h.modStrand n _)
  | trigPulseEnd n => exact .whileRunning h (h.modStrand n _)
  | oscEdge n => exact nextGraded_oscEdge h n
  | cutEdge n => exact .whileRunning h ((h.modStrand n _).cut n)
  | syncPair m x => exact nextGraded_syncPair h m x
  | scanFrame m f => exact nextGraded_scanFrame h m f
  | scanGapTimeout m inHeader => exact nextGraded_scanGapTimeout h m inHeader
  | lineWaitExpiry m k => exact nextGraded_lineWaitExpiry h m k
  | startByte => exact nextGraded_startByte h
  | hostFrame f crc => exact nextGraded_hostFrame h f crc
  | hostFrameBad why => exact nextGraded_hostFrameBad h why
  | hostGapTimeout => exact .whileRunning h (h.abandonFrame _)
  | transmitComplete => exact nextGraded_transmitComplete h
  | unknownKind => exact nextGraded_unknownKind h
  | getInfo => exact .request h fun _ _ _ => .of_rq fun _ => rfl
  | getStatus => exact nextGraded_getStatus h
  | getTracks => exact nextGraded_getTracks h
  | getStats => exact nextGraded_getStats h
  | takeBillet => exact nextGraded_takeBillet h
  | setNotices => exact .request h fun _ _ _ => .of_rq fun _ => rfl
  | restart => exact .request h fun _ _ _ => .of_rq fun _ => rfl
  | setStrand => exact .request h fun b t _ => keepsGrades_handleSetStrand b t
  | setChannel => exact .request h fun b t _ => keepsGrades_handleSetChannel b t
  | startStrand => exact .request h fun b t _ => keepsGrades_handleStartStrand b t
  | finishStrand => exact .request h fun b t _ => keepsGrades_handleFinishStrand b t
  | stopStrand => exact .request h fun b t _ => keepsGrades_handleStopStrand b t
  | cutStrand => exact .request h fun b t _ => keepsGrades_handleCutStrand b t
  | scheduleGrade => exact .request h fun b t _ => keepsGrades_handleScheduleGrade b t
  | clearSchedule => exact .request h fun b t _ => keepsGrades_handleClearSchedule b t
  | releaseChannel => exact .request h fun b t _ => keepsGrades_handleReleaseChannel b t
  | storeRecipe => exact .request h fun b t _ => keepsGrades_handleStoreRecipe b t
  | readRecipe => exact .request h fun b t _ => keepsGrades_handleReadRecipe b t
  | freezeRecipe => exact .request h fun b t _ => keepsGrades_handleFreezeRecipe b t
  | clearStore => exact .request h fun b t _ => keepsGrades_handleClearStore b t
  | storeComplete verified => exact nextGraded_storeComplete h verified
  | freezeComplete verified => exact nextGraded_freezeComplete h verified
  | clearComplete => exact nextGraded_clearComplete h
  | hostRestart => exact nextGraded_hostRestart h
  | resetLow => exact .next (h.modSup _).beginHold
  | resetHigh => exact .next (h.modSup _)
  | supplySample isBelow => exact nextGraded_supplySample h isBelow
  | supplyHold => exact nextGraded_supplyHold h
  | supplyRelease => exact nextGraded_supplyRelease h
  | powerUp => exact .next (.of_empty (State.clearCounts_rq _ _))
  | clockHalt => exact .whileRunning h (h.of_rq rfl)
  | restartRelease pins => exact nextGraded_restartRelease h pins

end

/-- Settles O8: a report enters the queue only as it was built, and so graded by R138 (PRIOR_LOSS apart, which takes no
part in it). -/
theorem queuedReportsAreGradedInOrder : Obligations.QueuedReportsAreGradedInOrder := fun c _ t h e =>
  exec_nextGraded c h t e

end Sys2Proof.Machine

/-! The recipe store (08): a slot named in the body of a request, and READ_RECIPE (R150). -/

namespace Sys2Proof.Machine

/-! ### A number in a body -/

theorem inRange_val {n : Nat} (i : Fin n) : inRange n i.val = some i := dif_pos i.isLt

theorem inRange_of_le {n v : Nat} (h : n ≤ v) : inRange n v = none := dif_neg (Nat.not_lt.2 h)

/-- A number written in the byte at the head of a body is read back from it. -/
theorem byteAt_zero_byte_append {v : Nat} (h : v < 256) (rest : List Byte) : byteAt (byte v ++ rest) 0 = v := by
  simpa [byteAt, byte] using h

/-- A slot named in the byte at the head of a body is the slot found there. -/
theorem inRange_byteAt_slot (i : SlotId) (rest : List Byte) : inRange 16 (byteAt (byte i.val ++ rest) 0) = some i := by
  rw [byteAt_zero_byte_append (by omega), inRange_val]

/-! ### READ_RECIPE (R150) -/

theorem exec_readRecipe_of_takes {s : State} {tag : Byte} {body : List Byte} (takes : s.Takes ⟨0x0D#8, tag, body⟩)
    (one : body.length = 1) :
    exec .readRecipe s =
      .next (s.handled ⟨0x0D#8, tag, body⟩ (handleReadRecipe body (s.take ⟨0x0D#8, tag, body⟩))) :=
  congrArg Host.Outcome.next (State.request_handled takes 0x0D 1 rfl one handleReadRecipe)

theorem handleReadRecipe_of_bad_slot {b : List Byte} (h : inRange 16 (byteAt b 0) = none) (s : State) :
    handleReadRecipe b s = refuse .badArgument := by
  rw [handleReadRecipe, h]

section
variable {b : List Byte} {s : State} {i : SlotId} (named : inRange 16 (byteAt b 0) = some i)
include named

theorem handleReadRecipe_of_writing (h : (s.slot i).content = .writing) : handleReadRecipe b s = refuse .busy := by
  simp only [handleReadRecipe, named, h]

theorem handleReadRecipe_of_empty (h : (s.slot i).content = .empty) : handleReadRecipe b s = refuse .empty := by
  simp only [handleReadRecipe, named, h]

theorem handleReadRecipe_of_valid {r : Recipe} (h : (s.slot i).content = .valid r) :
    handleReadRecipe b s =
      granted (le 2 (s.slot i).revision.toNat ++ byte (s.slot i).frozen.toNat ++ recipeBytes r) id := by
  simp only [handleReadRecipe, named, h]

end

/-- Settles O45: the taken request is handled on a state whose store is that of `s`, and the content of the slot it
names decides the reply; no case has an effect. -/
theorem readRecipeReturnsTheSlot : Obligations.ReadRecipeReturnsTheSlot := by
  intro s tag
  constructor
  · intro b bad takes
    have unnamed : inRange 16 (byteAt [b] 0) = none := inRange_of_le bad
    rw [exec_readRecipe_of_takes takes rfl, handleReadRecipe_of_bad_slot unnamed, State.handled_refuse]
    rfl
  · intro i f takes
    have named : inRange 16 (byteAt (byte i.val) 0) = some i := inRange_byteAt_slot i []
    rw [exec_readRecipe_of_takes takes rfl, ← s.take_slot f i]
    refine ⟨fun writing => ?_, fun empty => ?_, fun r valid => ⟨?_, recipeBytes_length r⟩⟩
    · rw [handleReadRecipe_of_writing named writing, State.handled_refuse]
      rfl
    · rw [handleReadRecipe_of_empty named empty, State.handled_refuse]
      rfl
    · rw [handleReadRecipe_of_valid named valid, State.handled_granted_id]
      rfl

end Sys2Proof.Machine

/-! TAKE_BILLET (R173): the lengths of the report layouts (12), and the two replies by what the report queue holds. -/

namespace Sys2Proof.Machine

/-! ### Lengths of the report layouts (12) -/

/-- Entries of one width fill that width times their number. -/
theorem flatMap_length_of_width {α : Type} {f : α → List Byte} {w : Nat} (width : ∀ x, (f x).length = w)
    (xs : List α) : (xs.flatMap f).length = w * xs.length := by
  rw [List.length_flatMap, List.sum_eq_card_nsmul _ w (by simp [width]), List.length_map, smul_eq_mul, Nat.mul_comm]

theorem entryBytes_length (e : ReportEntry) : (entryBytes e).length = 16 := by
  simp only [entryBytes, List.length_append, le_length, byte_length, Vector.length_toList]

theorem faceBytes_length (f : FaceSummary) : (faceBytes f).length = 33 := by
  have bins : (f.bins.toList.flatMap (le 2)).length = 10 := by
    rw [flatMap_length_of_width (le_length 2), Vector.length_toList]
  simp only [faceBytes, List.length_append, le_length, byte_length, bins]

theorem kindBytes_length (k : RecordKind) : (kindBytes k).length = 6 := by
  cases k with
  | longitudinal mean hits gaps => simp only [kindBytes, List.length_append, le_length]
  | transverse => simp only [kindBytes, List.length_append, le_length]

theorem recordBytes_length (r : DefectRecord) : (recordBytes r).length = 24 := by
  simp only [recordBytes, List.length_append, le_length, byte_length, kindBytes_length]

theorem limitBytes_length (l : Limits) : (limitBytes l).length = 9 := by
  simp only [limitBytes, List.length_append, le_length, byte_length]

/-- The fixed part of a report is 27 bytes; its three lists add 16, 33 and 24 an item. -/
theorem reportBytes_length (r : BilletReport) :
    (reportBytes r).length = 27 + 16 * r.entries.length + 33 * r.faces.length + 24 * r.records.length := by
  simp only [reportBytes, List.length_append, le_length, byte_length, limitBytes_length,
    flatMap_length_of_width entryBytes_length, flatMap_length_of_width faceBytes_length,
    flatMap_length_of_width recordBytes_length]

/-! ### The two replies (R173) -/

theorem exec_takeBillet (s : State) : exec .takeBillet s = execTakeBillet s := rfl

section
variable {s : State} {tag : Byte} (takes : s.Takes ⟨0x10#8, tag, []⟩)
include takes

theorem exec_takeBillet_of_empty (empty : s.rq = []) :
    exec .takeBillet s = .next (s.handled ⟨0x10#8, tag, []⟩ (refuse .empty)) := by
  rw [exec_takeBillet, execTakeBillet, State.request_handled takes 0x10 0 rfl rfl]
  simp only [State.take_rq, empty]

theorem exec_takeBillet_of_report {rep : BilletReport} {rest : List BilletReport} (held : s.rq = rep :: rest) :
    exec .takeBillet s =
      .next (s.handled ⟨0x10#8, tag, []⟩ (granted (reportBytes rep) fun u => { u with rq := rest })) := by
  rw [exec_takeBillet, execTakeBillet, State.request_handled takes 0x10 0 rfl rfl]
  simp only [State.take_rq, held]

end

/-- Settles O17: the report queue as it stood when the request was taken decides the reply, and taking the oldest
report out of it is the only effect. -/
theorem takeBilletReturnsTheOldestReport : Obligations.TakeBilletReturnsTheOldestReport := by
  intro s tag takes
  refine ⟨fun empty => ?_, fun r rest held => ⟨?_, reportBytes_length r⟩⟩
  · rw [exec_takeBillet_of_empty takes empty, State.handled_refuse]
    rfl
  · rw [exec_takeBillet_of_report takes held, State.handled_granted]
    rfl

end Sys2Proof.Machine

/-! What a command does: the operation that each command calls, behind the taking of its request where it is one
(R166), and nothing where its event cannot occur (log 2). -/

namespace Sys2Proof.Machine

/-! ### The operations of the commands -/

/-- The command `c` takes the state `s` to `t`, its request taken and answered before: one constructor for each
operation that a command calls, with what its rule has checked. -/
inductive Acts : Instr → State → State → Prop
  | nothing (c : Instr) (s : State) : Acts c s s
  | count (n : StrandId) (input : EncInput) (s : State) : Acts (.encoderCount n input) s (s.encoderCount n input)
  | bothInputs (n : StrandId) (s : State) :
    Acts (.bothInputsChange n) s (s.modStrand n fun x => { x with phase := ⟨!x.phase.a, !x.phase.b⟩ })
  | pulseEnd (n : StrandId) (s : State) : Acts (.trigPulseEnd n) s (s.modStrand n fun x => { x with trig := false })
  | strokeIdle (n : StrandId) (s : State) :
    Acts (.oscEdge n) s (s.modStrand n fun x => { x with oscLevel := true })
  | stroke (n : StrandId) (s : State) (casting : (s.strand n).state ≠ .idle) :
    Acts (.oscEdge n) s ((s.modStrand n fun x => { x with oscLevel := true }).mouldStroke n)
  | cutEdge (n : StrandId) (s : State) :
    Acts (.cutEdge n) s ((s.modStrand n fun x => { x with cutLevel := true }).cut n)
  | cutRequest (n : StrandId) (s : State) : Acts .cutStrand s (s.cut n)
  | receives (m : ChannelId) (h : ScanHeader) (s : State) :
    Acts (.syncPair m h) s (s.modRx m fun rx => { rx with framing := .receiving h })
  | frame (m : ChannelId) (f : ScanFrame) (s : State) : Acts (.scanFrame m f) s ((s.hunt m).classify m f)
  | frameFails (m : ChannelId) (f : ScanFrame) (s : State) :
    Acts (.scanFrame m f) s ((s.hunt m).framingFailure m)
  | gap (m : ChannelId) (inHeader : Bool) (s : State) :
    Acts (.scanGapTimeout m inHeader) s ((s.hunt m).framingFailure m)
  | waitExpires (m : ChannelId) (k : Nat) (s : State) : Acts (.lineWaitExpiry m k) s (s.settleMissed m)
  | startByte (s : State) : Acts .startByte s (s.setHostRx (.receiving []))
  | hostFrame (f : HostFrame) (crc : BitVec 16) (s : State) :
    Acts (.hostFrame f crc) s ((s.setHostRx .hunting).acceptFrame f)
  | frameAbandoned (c : Instr) (rx : HostRx) (s : State) (event : requestForm c = none) : Acts c s (s.abandonFrame rx)
  | sent (s : State) : Acts .transmitComplete s (s.modHli fun h => { h with output := h.output.drop 1 })
  | takeReport (s : State) : Acts .takeBillet s { s with rq := s.rq.drop 1 }
  | clearChannelStats (m : ChannelId) (s : State) :
    Acts .getStats s (s.modChannel m fun c => { c with stats := Vector.replicate 22 0 })
  | clearStrandStats (n : StrandId) (s : State) :
    Acts .getStats s (s.modStrand n fun x => { x with stats := Vector.replicate 20 0 })
  | clearLinkStats (s : State) : Acts .getStats s { s with linkStats := Vector.replicate 5 0 }
  | setMask (mask : Byte) (s : State) : Acts .setNotices s (s.modHli fun h => { h with mask := mask })
  | restartPending (s : State) : Acts .restart s (s.modHli fun h => { h with restartPending := true })
  | configure (n : StrandId) (cfg : StrandConfig) (s : State) (idle : (s.strand n).state = .idle)
    (pitch : 1 ≤ cfg.countsPerLine) : Acts .setStrand s (s.modStrand n fun x => { x with cfg := cfg })
  | configureChannel (m : ChannelId) (cfg : ChannelConfig) (s : State)
    (idle : (s.strand (s.channel m).cfg.strand).state = .idle) (idle' : (s.strand cfg.strand).state = .idle) :
    Acts .setChannel s (s.modChannel m (configuredChannel cfg))
  | start (n : StrandId) (i : SlotId) (revision : BitVec 16) (r : Recipe) (s : State)
    (idle : (s.strand n).state = .idle) : Acts .startStrand s (s.startStrand n ⟨0, i, revision, false, r⟩)
  | finish (n : StrandId) (s : State) (casting : (s.strand n).state = .casting) :
    Acts .finishStrand s ((s.modStrand n fun x => { x with state := .finishing }).strandNotice n .finish)
  | stop (n : StrandId) (s : State) (casting : (s.strand n).state ≠ .idle) :
    Acts .stopStrand s (s.stopStrand n .stop)
  | schedule (n : StrandId) (g : Nat) (i : SlotId) (s : State) (casting : (s.strand n).state ≠ .idle)
    (order : outOfOrder (s.strand n) g = false) (room : (s.strand n).schedule.length < scheduleCapacity) :
    Acts .scheduleGrade s (s.modStrand n fun x => { x with schedule := x.schedule ++ [⟨g, i⟩] })
  | clearSchedule (n : StrandId) (s : State) :
    Acts .clearSchedule s (s.modStrand n fun x => { x with schedule := [] })
  | release (m : ChannelId) (s : State) (locked : (s.channel m).hardLocked = true) :
    Acts .releaseChannel s (s.releaseChannel m)
  | beginStore (i : SlotId) (r : Recipe) (s : State) (unfrozen : (s.slot i).frozen = false)
    (free : s.store.op = .none) :
    Acts .storeRecipe s ((s.modSlot i fun x => { x with content := .writing }).setOp (.store i r))
  | beginFreeze (i : SlotId) (s : State) (valid : (s.slot i).content.isValid = true)
    (unfrozen : (s.slot i).frozen = false) (free : s.store.op = .none) : Acts .freezeRecipe s (s.setOp (.freeze i))
  | beginClear (s : State) (free : s.store.op = .none) :
    Acts .clearStore s ((s.modSlots fun x => { x with content := .writing }).setOp .clear)
  | stored (i : SlotId) (r : Recipe) (verified : Bool) (s : State) (flight : s.store.op = .store i r) :
    Acts (.storeComplete verified) s
      (((s.modSlot i (storedSlot r verified)).setOp .none).slotDone 1 i (doneResult verified))
  | frozen (i : SlotId) (verified : Bool) (s : State) (flight : s.store.op = .freeze i) :
    Acts (.freezeComplete verified) s
      (((s.modSlot i fun x => { x with frozen := x.frozen || verified }).setOp .none).slotDone 2 i (doneResult verified))
  | cleared (s : State) (flight : s.store.op = .clear) :
    Acts .clearComplete s (((s.modSlots fun _ => clearedSlot).setOp .none).storeDone 3 0xFF .ok 0 0)
  | supervise (c : Instr) (f : Supervisor → Supervisor) (s : State) (event : requestForm c = none) :
    Acts c s (s.modSup f)
  | hold (c : Instr) (f : Supervisor → Supervisor) (cause : RestartCause) (s : State) (event : requestForm c = none)
    (zeroes : zeroesTravel c = true) : Acts c s ((s.modSup f).blocksInitial.clearCounts cause)
  | halt (s : State) :
    Acts .clockHalt s
      { s.modSup fun p => { p with clock := .halted } with
        strands := Vector.ofFn fun n => { s.strands[n] with trig := false } }
  | released (pins : ReleasePins) (s : State) : Acts (.restartRelease pins) s (s.releaseRestart pins)

/-- A command acts at once, or on the state in which the oldest waiting frame has been taken and answered, and is then
released (R166). -/
inductive Does (c : Instr) (s : State) : State → Prop
  | event {t : State} (acts : Acts c s t) (form : requestForm c = none) : Does c s t
  | idles : Does c s s
  | request {f : HostFrame} {body : List Byte} {t : State} (room : s.hli.output.length < 16)
    (acts : Acts c ((s.take f).reply f body) t) : Does c s t.release

/-! ### Requests -/

/-- A handled request is answered with some result code, and its effect is the command's operation, on the answered
state too. -/
structure Handled.Does (c : Instr) (x : Handled) (s : State) : Prop where
  answers : x.body ≠ []
  acts (u : State) : u.strands = s.strands → u.channels = s.channels → u.store = s.store → u.rq = s.rq →
    Acts c u (x.effect u)

theorem Handled.Does.granted {c : Instr} {more : List Byte} {effect : State → State} {s : State}
    (acts : ∀ u : State, u.strands = s.strands → u.channels = s.channels → u.store = s.store → u.rq = s.rq →
      Acts c u (effect u)) : (granted more effect).Does c s := ⟨List.cons_ne_nil _ _, acts⟩

theorem Handled.Does.refuse {c : Instr} {code : ResultCode} {s : State} : (refuse code).Does c s :=
  ⟨List.cons_ne_nil _ _, fun u _ _ _ _ => .nothing c u⟩

theorem Handled.Does.granted_id {c : Instr} {more : List Byte} {s : State} : (Machine.granted more id).Does c s :=
  .granted fun u _ _ _ _ => .nothing c u

section
variable {s u : State}

theorem strand_eq_of_strands (h : u.strands = s.strands) (n : StrandId) : u.strand n = s.strand n := by
  rw [State.strand, h]; rfl

theorem channel_eq_of_channels (h : u.channels = s.channels) (m : ChannelId) : u.channel m = s.channel m := by
  rw [State.channel, h]; rfl

theorem slot_eq_of_store (h : u.store = s.store) (i : SlotId) : u.slot i = s.slot i := by
  rw [State.slot, h]; rfl

end

theorem State.strandIdle_iff (s : State) (n : StrandId) : s.strandIdle n = true ↔ (s.strand n).state = .idle := by
  simp [State.strandIdle]

theorem State.storeBusy_eq_false_iff (s : State) : s.storeBusy = false ↔ s.store.op = .none := by
  simp [State.storeBusy]

theorem one_le_clamp {lo hi v : Nat} (h : 1 ≤ lo) : 1 ≤ clamp lo hi v := by
  unfold clamp
  omega

theorem does_handleSetStrand (b : List Byte) (s : State) : (handleSetStrand b s).Does .setStrand s := by
  unfold handleSetStrand
  split
  next n sign _ _ =>
    split
    next idle =>
      rw [State.strandIdle_iff] at idle
      exact .granted fun u hs _ _ _ =>
        .configure n _ u (by rw [strand_eq_of_strands hs, idle]) (one_le_clamp (Nat.le_refl 1))
    · exact .refuse
  · exact .refuse

theorem does_handleSetChannel (b : List Byte) (s : State) : (handleSetChannel b s).Does .setChannel s := by
  unfold handleSetChannel
  split
  next m raw _ _ =>
    split
    · exact .refuse
    next idle =>
      simp only [Bool.not_eq_true', Bool.not_eq_false, Bool.and_eq_true, State.strandIdle_iff] at idle
      split
      · exact .refuse
      · refine .granted fun u hs hc _ _ => .configureChannel m _ u ?_ ?_
        · rw [channel_eq_of_channels hc, strand_eq_of_strands hs, idle.1]
        · rw [strand_eq_of_strands hs, idle.2]
  · exact .refuse

theorem does_handleStartStrand (b : List Byte) (s : State) : (handleStartStrand b s).Does .startStrand s := by
  unfold handleStartStrand
  split
  next n i _ _ =>
    split
    · exact .refuse
    next idle =>
      simp only [Bool.not_eq_true', Bool.not_eq_false, State.strandIdle_iff] at idle
      split
      · exact .refuse
      · exact .refuse
      split
      · exact .granted fun u hs _ _ _ => .start n i _ _ u (by rw [strand_eq_of_strands hs, idle])
      · exact .refuse
  · exact .refuse

theorem does_handleFinishStrand (b : List Byte) (s : State) : (handleFinishStrand b s).Does .finishStrand s := by
  unfold handleFinishStrand
  split
  · exact .refuse
  next n _ =>
    split
    · exact .refuse
    next casting => exact .granted fun u hs _ _ _ => .finish n u (by rw [strand_eq_of_strands hs, casting])
    · exact .granted_id

theorem does_handleStopStrand (b : List Byte) (s : State) : (handleStopStrand b s).Does .stopStrand s := by
  unfold handleStopStrand
  split
  · exact .refuse
  next n _ =>
    split
    · exact .granted_id
    all_goals
      next casting =>
        exact .granted fun u hs _ _ _ => .stop n u (by simp only [strand_eq_of_strands hs, casting, ne_eq, reduceCtorEq,
          not_false_eq_true])

theorem does_handleCutStrand (b : List Byte) (s : State) : (handleCutStrand b s).Does .cutStrand s := by
  unfold handleCutStrand
  split
  · exact .refuse
  next n _ => exact .granted fun u _ _ _ _ => .cutRequest n u

theorem does_handleScheduleGrade (b : List Byte) (s : State) : (handleScheduleGrade b s).Does .scheduleGrade s := by
  unfold handleScheduleGrade
  split
  next n i _ _ =>
    dsimp only
    split
    · exact .refuse
    next casting =>
      split
      · exact .refuse
      next order =>
        split
        · exact .refuse
        next room =>
          rw [State.strandIdle_iff] at casting
          refine .granted fun u hs _ _ _ => .schedule n _ i u ?_ ?_ ?_ <;> rw [strand_eq_of_strands hs]
          · exact casting
          · exact Bool.eq_false_iff.2 order
          · exact Nat.not_le.1 room
  · exact .refuse

theorem does_handleClearSchedule (b : List Byte) (s : State) : (handleClearSchedule b s).Does .clearSchedule s := by
  unfold handleClearSchedule
  split
  · exact .refuse
  next n _ => exact .granted fun u _ _ _ _ => .clearSchedule n u

theorem does_handleReleaseChannel (b : List Byte) (s : State) : (handleReleaseChannel b s).Does .releaseChannel s := by
  unfold handleReleaseChannel
  split
  · exact .refuse
  next m _ =>
    split
    next locked => exact .granted fun u _ hc _ _ => .release m u (by rw [channel_eq_of_channels hc, locked])
    · exact .refuse

theorem does_handleStoreRecipe (b : List Byte) (s : State) : (handleStoreRecipe b s).Does .storeRecipe s := by
  unfold handleStoreRecipe
  split
  next i r mask _ _ =>
    split
    · exact .refuse
    next unfrozen =>
      split
      · exact .refuse
      next free =>
        rw [Bool.not_eq_true, State.storeBusy_eq_false_iff] at free
        exact .granted fun u _ _ hst _ =>
          .beginStore i r u (by rw [slot_eq_of_store hst]; exact Bool.eq_false_iff.2 unfrozen) (by rw [hst, free])
  · exact .refuse

theorem does_handleReadRecipe (b : List Byte) (s : State) : (handleReadRecipe b s).Does .readRecipe s := by
  unfold handleReadRecipe
  split
  · exact .refuse
  split
  · exact .refuse
  · exact .refuse
  · exact .granted_id

theorem does_handleFreezeRecipe (b : List Byte) (s : State) : (handleFreezeRecipe b s).Does .freezeRecipe s := by
  unfold handleFreezeRecipe
  split
  · exact .refuse
  next i _ =>
    split
    · exact .refuse
    · exact .refuse
    next r valid =>
      split
      · exact .granted_id
      next unfrozen =>
        split
        · exact .refuse
        next free =>
          rw [Bool.not_eq_true, State.storeBusy_eq_false_iff] at free
          refine .granted fun u _ _ hst _ => .beginFreeze i u ?_ ?_ (by rw [hst, free]) <;> rw [slot_eq_of_store hst]
          · rw [valid]; rfl
          · exact Bool.eq_false_iff.2 unfrozen

theorem does_handleClearStore (b : List Byte) (s : State) : (handleClearStore b s).Does .clearStore s := by
  unfold handleClearStore
  split
  · exact .refuse
  split
  · exact .refuse
  next free =>
    rw [Bool.not_eq_true, State.storeBusy_eq_false_iff] at free
    exact .granted fun u _ _ hst _ => .beginClear u (by rw [hst, free])

/-- The group that a GET_STATS names is cleared whole, and no other (R180). -/
theorem State.group_clear {s : State} {group number : Nat} {g : Group} (named : s.group group number = some g)
    (u : State) : Acts .getStats u (g.clear u) := by
  unfold State.group at named
  split at named
  · obtain ⟨m, -, rfl⟩ := Option.map_eq_some_iff.1 named
    exact .clearChannelStats m u
  · obtain ⟨n, -, rfl⟩ := Option.map_eq_some_iff.1 named
    exact .clearStrandStats n u
  · obtain rfl := Option.some.inj named
    exact .clearLinkStats u
  · exact nomatch named

/-! ### Every command -/

/-- The state that a command answers, if it answers one, comes from its operation. -/
def NextDoes (c : Instr) (s : State) (o : Host.Outcome State Fault Refusal) : Prop := ∀ t, o = .next t → Does c s t

section
variable {c : Instr} {s : State}

theorem NextDoes.next {t : State} (h : Does c s t) : NextDoes c s (.next t) := by
  rintro _ ⟨⟩
  exact h

/-- An event of a block other than SUP changes nothing while the part does not run. -/
theorem NextDoes.whileRunning {f : State → State} (form : requestForm c = none) (acts : Acts c s (f s)) :
    NextDoes c s (.next (whileRunning s f)) := by
  refine .next ?_
  unfold Machine.whileRunning
  split
  · exact .event acts form
  · exact .idles

theorem State.output_lt_of_mayTake (h : s.mayTake = true) : s.hli.output.length < 16 := by
  obtain ⟨-, free⟩ := Bool.and_eq_true_iff.1 h
  have free := of_decide_eq_true free
  rw [State.freeOutput, outputCapacity] at free
  omega

/-- The command is a request, whose handler does its operation. -/
def AnswersBy (c : Instr) (kind length : Nat) : Prop :=
  ∃ handle : List Byte → State → Handled,
    (∀ b s, (handle b s).Does c s) ∧ ∀ s, exec c s = .next (s.request kind length handle)

theorem AnswersBy.intro {kind length : Nat} {handle : List Byte → State → Handled}
    (does : ∀ b s, (handle b s).Does c s) (calls : ∀ s, exec c s = .next (s.request kind length handle)) :
    AnswersBy c kind length := ⟨handle, does, calls⟩

/-- A request changes nothing, is handled by its rule, or is refused for its length. -/
theorem NextDoes.request {kind length : Nat} (answers : AnswersBy c kind length) : NextDoes c s (exec c s) := by
  obtain ⟨handle, does, calls⟩ := answers
  rw [calls]
  refine .next ?_
  obtain unmet | ⟨f, -, may, -, ⟨taken, -⟩ | ⟨refused, -⟩⟩ := s.request_cases kind length handle
  · rw [unmet]
    exact .idles
  · rw [taken]
    exact .request (State.output_lt_of_mayTake may) ((does f.body (s.take f)).acts _ rfl rfl rfl rfl)
  · rw [refused]
    exact .request (State.output_lt_of_mayTake may) (.nothing c _)

/-! #### Commands of the scan link -/

theorem nextDoes_syncPair (m : ChannelId) (h : ScanHeader) : NextDoes (.syncPair m h) s (execSyncPair m h s) := by
  refine .whileRunning rfl ?_
  split
  · split
    · exact .receives m h s
    · exact .nothing _ s
  · exact .nothing _ s

theorem nextDoes_scanFrame (m : ChannelId) (f : ScanFrame) : NextDoes (.scanFrame m f) s (execScanFrame m f s) := by
  refine .whileRunning rfl ?_
  split
  next hunting =>
    split
    · exact .nothing _ s
    · have fails := Acts.frameFails m f s
      rwa [State.hunt_of_hunting hunting] at fails
  · split
    · split
      · exact .frame m f s
      · exact .frameFails m f s
    · exact .nothing _ s

theorem nextDoes_scanGapTimeout (m : ChannelId) (inHeader : Bool) :
    NextDoes (.scanGapTimeout m inHeader) s (execScanGapTimeout m inHeader s) := by
  refine .whileRunning rfl ?_
  split
  next hunting =>
    split
    · have fails := Acts.gap m inHeader s
      rwa [State.hunt_of_hunting hunting] at fails
    · exact .nothing _ s
  · split
    · exact .nothing _ s
    · exact .gap m inHeader s

theorem nextDoes_lineWaitExpiry (m : ChannelId) (k : Nat) :
    NextDoes (.lineWaitExpiry m k) s (execLineWaitExpiry m k s) := by
  refine .whileRunning rfl ?_
  split
  · exact .nothing _ s
  · split
    · exact .waitExpires m k s
    · exact .nothing _ s

/-! #### Commands of the strands -/

theorem nextDoes_oscEdge (n : StrandId) : NextDoes (.oscEdge n) s (execOscEdge n s) := by
  refine .whileRunning rfl ?_
  dsimp only
  split
  · exact .strokeIdle n s
  all_goals
    next casting => exact .stroke n s (by simp only [casting, ne_eq, reduceCtorEq, not_false_eq_true])

/-! #### Commands of the host link -/

theorem nextDoes_startByte : NextDoes .startByte s (execStartByte s) := by
  refine .whileRunning rfl ?_
  split
  · exact .startByte s
  · exact .nothing _ s

theorem nextDoes_hostFrame (f : HostFrame) (crc : BitVec 16) :
    NextDoes (.hostFrame f crc) s (execHostFrame f crc s) := by
  refine .whileRunning rfl ?_
  split
  · split
    · exact .frameAbandoned _ _ s rfl
    split
    · exact .hostFrame f crc s
    · exact .frameAbandoned _ _ s rfl
  · exact .nothing _ s

theorem nextDoes_hostFrameBad (why : BadHostFrame) : NextDoes (.hostFrameBad why) s (execHostFrameBad why s) := by
  refine .whileRunning rfl ?_
  cases why with
  | characterError received =>
    dsimp only
    split
    · exact .frameAbandoned _ _ s rfl
    · exact .nothing _ s
  | badCrc => exact .frameAbandoned _ _ s rfl
  | overLength length =>
    dsimp only
    split
    · exact .frameAbandoned _ _ s rfl
    · exact .nothing _ s

theorem nextDoes_unknownKind : NextDoes .unknownKind s (execUnknownKind s) := by
  refine .next ?_
  split
  · exact .idles
  · split
    next may =>
      rw [Bool.and_eq_true] at may
      exact .request (State.output_lt_of_mayTake may.1) (.nothing _ _)
    · exact .idles

theorem answersBy_getStatus : AnswersBy .getStatus 0x02 2 := by
  refine .intro (fun b t => ?_) fun _ => rfl
  split
  · exact .granted_id
  · exact .refuse

theorem answersBy_getTracks : AnswersBy .getTracks 0x11 1 := by
  refine .intro (fun b t => ?_) fun _ => rfl
  split
  · exact .granted_id
  · exact .refuse

theorem answersBy_getStats : AnswersBy .getStats 0x12 3 := by
  refine .intro (fun b t => ?_) fun _ => rfl
  split
  next named _ =>
    split
    · exact .granted fun u _ _ _ _ => State.group_clear named u
    · exact .granted_id
  · exact .refuse

theorem answersBy_takeBillet : AnswersBy .takeBillet 0x10 0 := by
  refine .intro (fun b t => ?_) fun _ => rfl
  split
  · exact .refuse
  next rep rest held =>
    refine .granted fun u _ _ _ hrq => ?_
    have rest_eq : rest = u.rq.drop 1 := by rw [hrq, held]; rfl
    subst rest_eq
    exact .takeReport u

/-- Every request command answers through its handler (R166, R167). -/
theorem answersBy_of_form {kind : Byte} {length : Nat} (form : requestForm c = some (kind, length)) :
    AnswersBy c kind.toNat length := by
  cases c <;> cases form
  case getInfo => exact .intro (fun _ _ => .granted_id) fun _ => rfl
  case getStatus => exact answersBy_getStatus
  case setStrand => exact .intro does_handleSetStrand fun _ => rfl
  case setChannel => exact .intro does_handleSetChannel fun _ => rfl
  case startStrand => exact .intro does_handleStartStrand fun _ => rfl
  case finishStrand => exact .intro does_handleFinishStrand fun _ => rfl
  case stopStrand => exact .intro does_handleStopStrand fun _ => rfl
  case cutStrand => exact .intro does_handleCutStrand fun _ => rfl
  case scheduleGrade => exact .intro does_handleScheduleGrade fun _ => rfl
  case clearSchedule => exact .intro does_handleClearSchedule fun _ => rfl
  case releaseChannel => exact .intro does_handleReleaseChannel fun _ => rfl
  case storeRecipe => exact .intro does_handleStoreRecipe fun _ => rfl
  case readRecipe => exact .intro does_handleReadRecipe fun _ => rfl
  case freezeRecipe => exact .intro does_handleFreezeRecipe fun _ => rfl
  case clearStore => exact .intro does_handleClearStore fun _ => rfl
  case takeBillet => exact answersBy_takeBillet
  case getTracks => exact answersBy_getTracks
  case getStats => exact answersBy_getStats
  case setNotices => exact .intro (fun _ _ => .granted fun u _ _ _ _ => .setMask _ u) fun _ => rfl
  case restart => exact .intro (fun _ _ => .granted fun u _ _ _ _ => .restartPending u) fun _ => rfl

/-! #### Commands of the recipe store -/

theorem nextDoes_storeComplete (verified : Bool) :
    NextDoes (.storeComplete verified) s (execStoreComplete verified s) := by
  refine .whileRunning rfl ?_
  split
  next i r flight => exact .stored i r verified s flight
  all_goals exact .nothing _ s

theorem nextDoes_freezeComplete (verified : Bool) :
    NextDoes (.freezeComplete verified) s (execFreezeComplete verified s) := by
  refine .whileRunning rfl ?_
  split
  next i flight => exact .frozen i verified s flight
  all_goals exact .nothing _ s

theorem nextDoes_clearComplete : NextDoes .clearComplete s (execClearComplete s) := by
  refine .whileRunning rfl ?_
  split
  next flight => exact .cleared s flight
  all_goals exact .nothing _ s

/-! #### Commands of the supervisor -/

/-- A hold that meets one in force leaves the blocks as they are; any other begins the restart (R181). -/
theorem acts_beginHold (form : requestForm c = none) (zeroes : zeroesTravel c = true)
    (f : Supervisor → Supervisor) : Acts c s (s.modSup f).beginHold := by
  unfold State.beginHold
  split
  · exact .supervise c f s form
  · exact .hold c (fun p => { f p with inRestart := true, haltHold := (f p).clock == .halted, resetSeen := (f p).pinHold })
      _ s form zeroes

theorem nextDoes_transmitComplete : NextDoes .transmitComplete s (execTransmitComplete s) := by
  refine .whileRunning rfl ?_
  split
  · exact acts_beginHold rfl rfl id
  · exact .sent s

theorem nextDoes_hostRestart : NextDoes .hostRestart s (execHostRestart s) := by
  refine .whileRunning rfl ?_
  split
  · exact acts_beginHold rfl rfl id
  · exact .nothing _ s

theorem nextDoes_supplyHold : NextDoes .supplyHold s (execSupplyHold s) := by
  refine .next ?_
  split
  · exact .event (acts_beginHold rfl rfl _) rfl
  · exact .idles

theorem nextDoes_supplyRelease : NextDoes .supplyRelease s (execSupplyRelease s) := by
  refine .next ?_
  split
  · exact .event (.supervise _ _ s rfl) rfl
  · exact .idles

theorem nextDoes_supplySample (isBelow : Bool) : NextDoes (.supplySample isBelow) s (execSupplySample isBelow s) := by
  refine .next (.event ?_ rfl)
  split
  · split
    · exact acts_beginHold rfl rfl _
    · exact .supervise _ _ s rfl
  · exact .supervise _ _ s rfl
  · split
    · exact .supervise _ _ s rfl
    · exact .supervise _ _ s rfl
  · exact .supervise _ _ s rfl

theorem nextDoes_restartRelease (pins : ReleasePins) :
    NextDoes (.restartRelease pins) s (execRestartRelease pins s) := by
  refine .next ?_
  split
  · exact .event (.released pins s) rfl
  · exact .idles

end

/-- What any command comes to: its operation, with the taking of its request before. -/
theorem exec_does (c : Instr) (s : State) : NextDoes c s (exec c s) := by
  cases c with
  | encoderCount n input => exact .whileRunning rfl (.count n input s)
  | bothInputsChange n => exact .whileRunning rfl (.bothInputs n s)
  | trigPulseEnd n => exact .whileRunning rfl (.pulseEnd n s)
  | oscEdge n => exact nextDoes_oscEdge n
  | cutEdge n => exact .whileRunning rfl (.cutEdge n s)
  | syncPair m h => exact nextDoes_syncPair m h
  | scanFrame m f => exact nextDoes_scanFrame m f
  | scanGapTimeout m inHeader => exact nextDoes_scanGapTimeout m inHeader
  | lineWaitExpiry m k => exact nextDoes_lineWaitExpiry m k
  | startByte => exact nextDoes_startByte
  | hostFrame f crc => exact nextDoes_hostFrame f crc
  | hostFrameBad why => exact nextDoes_hostFrameBad why
  | hostGapTimeout => exact .whileRunning rfl (.frameAbandoned _ _ s rfl)
  | transmitComplete => exact nextDoes_transmitComplete
  | unknownKind => exact nextDoes_unknownKind
  | getInfo | getStatus | getTracks | getStats | takeBillet | setNotices | restart | setStrand | setChannel | startStrand
  | finishStrand | stopStrand | cutStrand | scheduleGrade | clearSchedule | releaseChannel | storeRecipe | readRecipe
  | freezeRecipe | clearStore => exact .request (answersBy_of_form rfl)
  | storeComplete verified => exact nextDoes_storeComplete verified
  | freezeComplete verified => exact nextDoes_freezeComplete verified
  | clearComplete => exact nextDoes_clearComplete
  | hostRestart => exact nextDoes_hostRestart
  | resetLow => exact .next (.event (acts_beginHold rfl rfl _) rfl)
  | resetHigh => exact .next (.event (.supervise _ _ s rfl) rfl)
  | supplySample isBelow => exact nextDoes_supplySample isBelow
  | supplyHold => exact nextDoes_supplyHold
  | supplyRelease => exact nextDoes_supplyRelease
  | powerUp => exact .next (.event (.hold _ _ _ s rfl rfl) rfl)
  | clockHalt => exact .whileRunning rfl (.halt s)
  | restartRelease pins => exact nextDoes_restartRelease pins

end Sys2Proof.Machine

/-! What every command leaves alone: the queue of waiting commands, and, while the part is held or halted, the whole
state but for SUP (log 2; R181, R183). -/

namespace Sys2Proof.Machine

/-! ### What the frames of lines and strands say of single fields -/

section
variable {s t : State}

theorem LineKept.pending_eq {m : ChannelId} (kept : LineKept m s t) : t.pending = s.pending := by
  obtain ⟨-, -, -, -, -, -, -, same, -⟩ := kept
  exact same

theorem LineKept.store_eq {m : ChannelId} (kept : LineKept m s t) : t.store = s.store := by
  obtain ⟨-, -, -, -, -, same, -⟩ := kept
  exact same

theorem LineKept.grows {m : ChannelId} (kept : LineKept m s t) : LinkGrows s t := by
  obtain ⟨-, -, -, -, -, -, -, -, grows, -⟩ := kept
  exact grows

theorem LineKept.cfg_eq {m : ChannelId} (kept : LineKept m s t) (j : ChannelId) :
    (t.channel j).cfg = (s.channel j).cfg := by
  obtain ⟨others, own, -⟩ := kept
  by_cases e : j = m
  · rw [e, own]
  · rw [others j e]

/-- A line leaves of every strand all but the billet, the pending records and the counters. -/
theorem LineKept.strand_eq {m : ChannelId} (kept : LineKept m s t) (n : StrandId) :
    t.strand n =
      { s.strand n with billet := (t.strand n).billet, defects := (t.strand n).defects, stats := (t.strand n).stats } := by
  obtain ⟨-, -, others, own, -⟩ := kept
  by_cases e : n = (s.channel m).cfg.strand
  · exact own n e
  · rw [others n e]

theorem StrandKept.pending_eq {n : StrandId} (kept : StrandKept n s t) : t.pending = s.pending := by
  obtain ⟨⟨-, -, -, -, same, -⟩, -⟩ := kept
  exact same

theorem StrandKept.store_eq {n : StrandId} (kept : StrandKept n s t) : t.store = s.store := by
  obtain ⟨⟨-, -, same, -⟩, -⟩ := kept
  exact same

theorem StrandKept.grows {n : StrandId} (kept : StrandKept n s t) : LinkGrows s t := by
  obtain ⟨⟨-, -, -, -, -, grows⟩, -⟩ := kept
  exact grows

theorem StrandKept.strand_ne {n : StrandId} (kept : StrandKept n s t) {j : StrandId} (h : j ≠ n) :
    t.strand j = s.strand j := by
  obtain ⟨⟨others, -⟩, -⟩ := kept
  exact others j h

theorem StrandKept.cfg_eq {n : StrandId} (kept : StrandKept n s t) (m : ChannelId) :
    (t.channel m).cfg = (s.channel m).cfg := kept.2 m

end

theorem StrandKept.mouldStroke (n : StrandId) (s : State) : StrandKept n s (s.mouldStroke n) := by
  unfold State.mouldStroke
  dsimp only
  split
  · exact (StrandKept.modStrand n s _).trans (.raiseStrand n _ _ _)
  · exact (StrandKept.raiseStrand n s _ _).trans (.modBillet n _ _)

theorem StrandKept.strandNotice (n : StrandId) (s : State) (reason : StrandReason) :
    StrandKept n s (s.strandNotice n reason) := .offer n s _ _

/-! ### A change of several channels at once -/

/-- Changing the channels of a list one by one changes each of them once. -/
theorem State.foldl_modChannel (f : Channel → Channel) (ms : List ChannelId) (nodup : ms.Nodup) (s : State) :
    ms.foldl (fun t m => t.modChannel m f) s =
      { s with channels := Vector.ofFn fun m : ChannelId => if m ∈ ms then f (s.channel m) else s.channel m } := by
  induction ms generalizing s with
  | nil => simp [State.channel]
  | cons a ms ih =>
    obtain ⟨fresh, nodup⟩ := List.nodup_cons.1 nodup
    rw [List.foldl_cons, ih nodup]
    simp only [State.modChannel_eq, State.putChannel_strands, State.putChannel_rq, State.putChannel_store,
      State.putChannel_hli, State.putChannel_linkStats, State.putChannel_sup, State.putChannel_draws,
      State.putChannel_pending, List.mem_cons, State.channel_putChannel]
    congr 2
    funext m
    by_cases e : m = a
    · subst e
      simp [fresh]
    · simp [e]

theorem allChannels_nodup : allChannels.Nodup := by decide

/-- The channels that name strand n start afresh, all at once (R12). -/
theorem State.startStrand_eq (s : State) (n : StrandId) (e : HistoryEntry) :
    s.startStrand n e =
      (State.openBillet
        { s.putStrand n (startedStrand e (s.strand n)) with
          channels := Vector.ofFn fun m : ChannelId =>
            if (s.channel m).cfg.strand = n then startedChannel (s.channel m) else s.channel m }
        n 0 true).strandNotice n .start := by
  rw [State.startStrand]
  simp only [State.foldl_modChannel startedChannel _ (allChannels_nodup.filter _), State.modStrand_eq,
    List.mem_filter, mem_allChannels, true_and, beq_iff_eq, State.putStrand_channel,
    State.putStrand_rq, State.putStrand_store, State.putStrand_hli, State.putStrand_linkStats, State.putStrand_sup,
    State.putStrand_draws, State.putStrand_pending]

/-! ### The queue of waiting commands (log 3) -/

theorem State.clearCounts_pending (s : State) (cause : RestartCause) : (s.clearCounts cause).pending = s.pending := by
  unfold State.clearCounts
  split <;> rfl

theorem State.storeDone_pending (s : State) (op slot : Nat) (result : ResultCode) (state revision : Nat) :
    (s.storeDone op slot result state revision).pending = s.pending := State.offer_pending ..

theorem State.slotDone_pending (s : State) (op : Nat) (i : SlotId) (result : ResultCode) :
    (s.slotDone op i result).pending = s.pending := State.offer_pending ..

theorem Acts.pending_eq {c : Instr} {s t : State} (acts : Acts c s t) : t.pending = s.pending := by
  cases acts with
  | count n input => exact (StrandKept.encoderCount n s input).pending_eq
  | stroke n => exact ((StrandKept.modStrand n s _).trans (.mouldStroke n _)).pending_eq
  | cutEdge n => exact ((StrandKept.modStrand n s _).trans (.cut n _)).pending_eq
  | cutRequest n => exact (StrandKept.cut n s).pending_eq
  | frame m f => exact ((LineKept.modRx m s _).trans (.classify m _ f)).pending_eq
  | frameFails m f => exact ((LineKept.modRx m s _).trans (.framingFailure m _)).pending_eq
  | gap m inHeader => exact ((LineKept.modRx m s _).trans (.framingFailure m _)).pending_eq
  | waitExpires m k => exact (LineKept.settleMissed m s).pending_eq
  | hostFrame f crc => unfold State.acceptFrame; split <;> rfl
  | frameAbandoned c rx => unfold State.abandonFrame; split <;> rfl
  | start n i revision r => rw [State.startStrand_eq]; exact State.offer_pending ..
  | finish n => exact ((StrandKept.modStrand n s _).trans (.strandNotice n _ _)).pending_eq
  | stop n => exact (StrandKept.stopStrand n s _).pending_eq
  | release m => exact (LineKept.releaseChannel m s).pending_eq
  | stored i r verified => exact State.slotDone_pending _ _ i _
  | frozen i verified => exact State.slotDone_pending _ _ i _
  | cleared => rw [State.storeDone_pending, State.setOp_pending, State.modSlots_pending]
  | beginClear => rw [State.setOp_pending, State.modSlots_pending]
  | hold c f cause => exact State.clearCounts_pending _ _
  | released pins => exact State.clearCounts_pending _ _
  | _ => rfl

theorem Does.pending_eq {c : Instr} {s t : State} (does : Does c s t) : t.pending = s.pending := by
  cases does with
  | event acts => exact acts.pending_eq
  | idles => rfl
  | request _ acts => exact acts.pending_eq

/-! ### Held or halted (R181, R183) -/

/-- The command leaves the state as it is while the part does not run. -/
def InertWhileHeld (s : State) (o : Host.Outcome State Fault Refusal) : Prop := ¬s.Runs → o = .next s

theorem InertWhileHeld.whileRunning {s : State} {f : State → State} :
    InertWhileHeld s (.next (whileRunning s f)) := fun held => by rw [whileRunning_of_not held]

theorem State.mayTake_of_not_runs {s : State} (held : ¬s.Runs) : s.mayTake = false := by
  have stopped : s.running = false := Bool.eq_false_iff.2 (mt s.running_iff.1 held)
  simp [State.mayTake, stopped]

/-- No request is taken while the part does not run (R166). -/
theorem InertWhileHeld.request {s : State} {kind length : Nat} {h : List Byte → State → Handled} :
    InertWhileHeld s (.next (s.request kind length h)) := fun held => by
  obtain unmet | ⟨f, -, may, -⟩ := s.request_cases kind length h
  · rw [unmet]
  · rw [State.mayTake_of_not_runs held] at may
    exact nomatch may

theorem inertWhileHeld_unknownKind (s : State) : InertWhileHeld s (execUnknownKind s) := fun held => by
  unfold execUnknownKind
  split
  · rfl
  · rw [State.mayTake_of_not_runs held, Bool.false_and, if_neg Bool.false_ne_true]

theorem exec_inertWhileHeld (c : Instr) (s : State) (other : ofSupervisor c = false) : InertWhileHeld s (exec c s) := by
  cases c with
  | unknownKind => exact inertWhileHeld_unknownKind s
  | resetLow | resetHigh | supplyHold | supplyRelease | powerUp | restartRelease _ | supplySample _ =>
    exact nomatch other
  | getInfo | getStatus | setStrand | setChannel | startStrand | finishStrand | stopStrand | cutStrand | scheduleGrade
  | clearSchedule | releaseChannel | storeRecipe | readRecipe | freezeRecipe | clearStore | takeBillet | getTracks
  | getStats | setNotices | restart => exact .request
  | _ => exact .whileRunning

/-- No command answers a fault or a refusal (log 2). -/
theorem exec_next (c : Instr) (s : State) : ∃ t, exec c s = .next t := by
  cases c <;> exact ⟨_, rfl⟩

/-- Settles O2: the next state is there by computation, what it comes from keeps the queue, and a command of another
block than SUP is inert while the part does not run. -/
theorem onlySupActsWhileHeldOrHalted : Obligations.OnlySupActsWhileHeldOrHalted := by
  intro c s
  obtain ⟨t, next⟩ := exec_next c s
  refine ⟨t, next, (exec_does c s t next).pending_eq, fun held other => ?_⟩
  have inert := exec_inertWhileHeld c s other held
  rw [next] at inert
  exact Host.Outcome.next.inj inert

end Sys2Proof.Machine

/-! What the events of a line do, in single steps (02 to 06): each changes one part of its channel, adds to what the
billet assembler of its strand holds, or offers a notice. A property of a channel or of a strand that every step keeps
is kept by every line. -/

namespace Sys2Proof.Machine

/-! ### Steps of a channel -/

/-- A channel handles settlements: it is in none of DISABLED and IDLE (R37). -/
def ChannelState.handles : ChannelState → Bool
  | .disabled | .idle => false
  | .warmup | .active | .softLock _ | .hardLock _ => true

/-- One change of a channel during a cast, with what holds where it is made. -/
inductive ChannelStep (c : Channel) : Channel → Prop
  /-- The receiver changes; its timer runs exactly while it awaits, if it did so before (R22, R30, R32). -/
  | receiver (rx : Receiver)
    (timed : (c.rx.await = .quiet ↔ c.rx.timer = none) → (rx.await = .quiet ↔ rx.timer = none)) :
    ChannelStep c { c with rx := rx }
  /-- Counters rise, wide runs by as much as MARK and TRANSVERSE together (R58, R68, R69, R177). -/
  | counts (stats : Vector Counter 22) (by' : ChannelCounter → Counter)
    (raised : ∀ k, stats[channelIndex k] = c.stats[channelIndex k] + by' k)
    (wide : by' .wideRuns = by' .mark + by' .transverse) : ChannelStep c { c with stats := stats }
  /-- A line is filtered and entered in the coverage log (R77 to R79, R89). -/
  | logged (lost clear : Bool) (line : Nat) (cls : Coverage) :
    ChannelStep c
      { c with
        lp := { filterAfter lost clear c.lp with log := enterCoverage line cls (filterAfter lost clear c.lp).log } }
  /-- A clear line is processed in WARMUP (R42, R49). -/
  | warmed (r : Recipe) (samples : List Sample) (small : ∀ x ∈ samples, x.value < 4096) (warmup : c.lp.state = .warmup) :
    ChannelStep c { c with lp := warmupLp r c.cfg.groups samples c.lp }
  /-- A clear line is processed in ACTIVE (R45, R96). -/
  | processed (pitch line : Nat) (r : Recipe) (samples : List Sample) (narrow spans : List Run)
    (small : ∀ x ∈ samples, x.value < 4096) (sound : ∀ run ∈ narrow, run.first ≤ run.last) (active : c.lp.state = .active) :
    ChannelStep c
      { c with lp := activeLp r c.cfg.groups samples c.lp, tt := (associate pitch line r narrow spans c.tt).table }
  /-- A line is held (R98). -/
  | held (pitch line : Nat) (r : Recipe) : ChannelStep c { c with tt := holdTable pitch line r c.tt }
  /-- Every slot becomes FREE (R111). -/
  | freed : ChannelStep c { c with tt := freeTable c.tt }
  /-- SOFT_LOCK is entered (R78). -/
  | softened (left : LeftState) (from' : c.lp.state = leftChannelState left) :
    ChannelStep c { c with lp := { c.lp with state := .softLock left, clearRun := 0, softCount := 0 } }
  /-- SOFT_LOCK is left (R79). -/
  | cleared (left : LeftState) (soft : c.lp.state = .softLock left) :
    ChannelStep c
      { c with
        lp := { c.lp with state := leftChannelState left, obscuredRun := 0, clearRun := 0, softCount := 0 } }
  /-- HARD_LOCK is entered, the slots FREE (R84). -/
  | locked (cause : HardCause) (handles : c.lp.state.handles = true) (empty : c.tt.Empty) :
    ChannelStep c { c with lp := hardLockedLp cause c.lp }
  /-- The line processor restarts, the slots FREE (R51). -/
  | restarted (handles : c.lp.state.handles = true) (empty : c.tt.Empty) : ChannelStep c { c with lp := restartedLp c.lp }
  /-- A lock is released (R86). -/
  | released (handles : c.lp.state.handles = true) : ChannelStep c { c with lp := releasedLp c.lp, tt := freeTable c.tt }
  /-- The lines below a tail leave the coverage log (R130). -/
  | covered (pitch tail : Nat) :
    ChannelStep c { c with lp := { c.lp with log := coverageAbove pitch tail c.lp.log } }
  /-- A cut splits the tracks (R113). -/
  | split (pitch k : Nat) :
    ChannelStep c
      { c with
        tt := { expireForCut pitch c.tt with slots := cutSlots pitch k (expireForCut pitch c.tt).slots } }

theorem ChannelStep.cfg_eq {c d : Channel} (step : ChannelStep c d) : d.cfg = c.cfg := by
  cases step <;> rfl

/-- Steps of a channel one behind the other. -/
abbrev ChannelSteps : Channel → Channel → Prop := Relation.ReflTransGen ChannelStep

/-! ### Steps of a billet assembler -/

/-- What a line adds to a strand: a record, or its loss, or a flag of the open billet (R125, R126). -/
inductive BilletStep (x : Strand) : Strand → Prop
  | record (r : DefectRecord) (room : x.defects.length < 96) : BilletStep x { x with defects := x.defects ++ [r] }
  | dropped (full : 96 ≤ x.defects.length) :
    BilletStep x
      { x with
        stats := x.stats.set 13 (x.stats[13] + 1)
        billet := x.billet.map fun b => { b with defectsDropped := true } }
  | flagged (f : Face) (g : FaceFlags → FaceFlags) : BilletStep x { x with billet := x.billet.map (modFace f g) }

/-- Steps of a billet assembler one behind the other. -/
abbrev BilletSteps : Strand → Strand → Prop := Relation.ReflTransGen BilletStep

/-! ### Steps of the whole part -/

/-- One step of an event of a line of channel m. -/
inductive LineStep (m : ChannelId) (s : State) : State → Prop
  | channel (c : Channel) (step : ChannelStep (s.channel m) c) : LineStep m s (s.putChannel m c)
  | strand (x : Strand) (step : BilletStep (s.strand (s.channel m).cfg.strand) x) :
    LineStep m s (s.putStrand (s.channel m).cfg.strand x)
  | offer (k : NoticeKind) (body : List Byte) : LineStep m s (s.offer k body)
  | drawn (k : Nat) : LineStep m s (s.drawn k)

/-- Steps of events of channel m one behind the other. -/
def LineSteps (m : ChannelId) : State → State → Prop := Relation.ReflTransGen (LineStep m)

theorem LineSteps.refl {m : ChannelId} {s : State} : LineSteps m s s := Relation.ReflTransGen.refl

theorem LineSteps.single {m : ChannelId} {s t : State} (step : LineStep m s t) : LineSteps m s t :=
  Relation.ReflTransGen.single step

theorem LineSteps.trans {m : ChannelId} {s t u : State} (first : LineSteps m s t) (second : LineSteps m t u) :
    LineSteps m s u := Relation.ReflTransGen.trans first second

theorem LineSteps.channel {m : ChannelId} {s : State} {c : Channel} (step : ChannelStep (s.channel m) c) :
    LineSteps m s (s.putChannel m c) := .single (.channel c step)

/-- The channel of the event goes through steps of a channel. -/
theorem LineSteps.channelSteps {m : ChannelId} {s t : State} (steps : LineSteps m s t) :
    ChannelSteps (s.channel m) (t.channel m) := by
  induction steps with
  | refl => exact .refl
  | tail _ step ih =>
    cases step with
    | channel c step => exact ih.tail (by simpa using step)
    | strand x step => simpa using ih
    | offer k body => simpa using ih
    | drawn k => simpa using ih

theorem LineSteps.channel_ne {m j : ChannelId} {s t : State} (steps : LineSteps m s t) (h : j ≠ m) :
    t.channel j = s.channel j := by
  induction steps with
  | refl => rfl
  | tail _ step ih =>
    cases step with
    | channel c step => rw [State.channel_putChannel_ne _ _ h, ih]
    | strand x step => simpa using ih
    | offer k body => simpa using ih
    | drawn k => simpa using ih

theorem ChannelSteps.cfg_eq {c d : Channel} (steps : ChannelSteps c d) : d.cfg = c.cfg := by
  induction steps with
  | refl => rfl
  | tail _ step ih => rw [step.cfg_eq, ih]

/-- Every strand goes through steps of a billet assembler. -/
theorem LineSteps.billetSteps {m : ChannelId} {s t : State} (steps : LineSteps m s t) (n : StrandId) :
    BilletSteps (s.strand n) (t.strand n) := by
  induction steps with
  | refl => exact .refl
  | @tail u v _ step ih =>
    cases step with
    | channel c step => simpa using ih
    | strand x step =>
      by_cases e : n = (u.channel m).cfg.strand
      · subst e
        rw [State.strand_putStrand_self]
        exact ih.tail step
      · rwa [State.strand_putStrand_ne _ _ e]
    | offer k body => simpa using ih
    | drawn k => simpa using ih

/-! ### Counters -/

section
variable (m : ChannelId) (s : State)

theorem LineSteps.raiseChannel (k : ChannelCounter) (n : Nat)
    (other : k ≠ .wideRuns ∧ k ≠ .mark ∧ k ≠ .transverse := by decide) : LineSteps m s (s.raiseChannel m k n) := by
  obtain ⟨h1, h2, h3⟩ := other
  refine .channel (.counts _ (fun d => if d = k then BitVec.ofNat 32 n else 0) (fun d => ?_) ?_)
  · have count := s.channelCount_raiseChannel m k d n
    rw [State.channelCount, State.raiseChannel, State.modChannel_eq, State.channel_putChannel_self] at count
    exact count
  · simp [h1.symm, h2.symm, h3.symm]

theorem LineSteps.countEmission (minMm : Nat) (rs : List DefectRecord) :
    LineSteps m s (s.countEmission m minMm rs) :=
  (LineSteps.raiseChannel m s _ _).trans (.raiseChannel m _ _ _)

theorem LineSteps.countAssociation (a : Association) : LineSteps m s (s.countAssociation m a) :=
  ((LineSteps.raiseChannel m s _ _).trans (.raiseChannel m _ _ _)).trans
    (.raiseChannel m _ _ _)

end

/-- Raising two counters is raising the first and then the second: a change of the channel alone. -/
theorem State.raiseChannel_frame (s : State) (m : ChannelId) (k : ChannelCounter) (n : Nat) (t : State)
    (h : t = s.putChannel m { s.channel m with stats := (t.channel m).stats }) :
    t.raiseChannel m k n = s.putChannel m { s.channel m with stats := ((t.raiseChannel m k n).channel m).stats } := by
  rw [h]
  simp [State.raiseChannel, State.modChannel_eq]

theorem State.countRuns_frame (s : State) (m : ChannelId) (runs : LineRuns) :
    s.countRuns m runs =
      s.putChannel m { s.channel m with stats := ((s.countRuns m runs).channel m).stats } :=
  State.raiseChannel_frame s m _ _ _ <| State.raiseChannel_frame s m _ _ _ <| State.raiseChannel_frame s m _ _ _ <|
    State.raiseChannel_frame s m _ _ _ <| State.raiseChannel_frame s m _ _ s (s.putChannel_self m).symm

/-- What the runs of a line add to a counter of the channel (R58, R59, R68, R69). -/
def runCounts (runs : LineRuns) : ChannelCounter → Counter
  | .narrowRuns => BitVec.ofNat 32 runs.narrow.length
  | .wideRuns => BitVec.ofNat 32 runs.wide.length
  | .mark => BitVec.ofNat 32 (runs.wide.length - runs.transverses.length)
  | .transverse => BitVec.ofNat 32 runs.transverses.length
  | .runOverflow => BitVec.ofNat 32 runs.overflow.toNat
  | _ => 0

theorem State.channelCount_countRuns (s : State) (m : ChannelId) (runs : LineRuns) (k : ChannelCounter) :
    (s.countRuns m runs).channelCount m k = s.channelCount m k + runCounts runs k := by
  simp only [State.countRuns, State.channelCount_raiseChannel]
  cases k <;> simp [runCounts]

theorem sortRuns_transverses_le (r : Recipe) (gate : Bool) (hits : List (Nat × Nat)) :
    (sortRuns r gate hits).transverses.length ≤ (sortRuns r gate hits).wide.length := List.length_filter_le ..

theorem LineSteps.countRuns (m : ChannelId) (s : State) {runs : LineRuns}
    (le : runs.transverses.length ≤ runs.wide.length) : LineSteps m s (s.countRuns m runs) := by
  rw [s.countRuns_frame]
  refine .channel (.counts _ (runCounts runs) (s.channelCount_countRuns m runs) ?_)
  show BitVec.ofNat 32 _ = BitVec.ofNat 32 _ + BitVec.ofNat 32 _
  rw [← BitVec.ofNat_add, Nat.sub_add_cancel le]

/-! ### Reports and records -/

section
variable (m : ChannelId) (s : State)

theorem LineSteps.offer (k : NoticeKind) (body : List Byte) : LineSteps m s (s.offer k body) := .single (.offer k body)

theorem LineSteps.lockNotice (left hard : Bool) (cause : LockCause) (coord : Nat) :
    LineSteps m s (s.lockNotice m left hard cause coord) := .offer m s _ _

theorem LineSteps.reportFace (g : FaceFlags → FaceFlags) : LineSteps m s (s.reportFace m g) :=
  .single (.strand _ (.flagged _ g))

theorem LineSteps.reportWhen (b : Bool) (g : FaceFlags → FaceFlags) : LineSteps m s (s.reportWhen m b g) := by
  unfold State.reportWhen
  split
  · exact .reportFace m s g
  · exact .refl

theorem LineSteps.receive {n : StrandId} (own : n = (s.channel m).cfg.strand) (r : DefectRecord) :
    LineSteps m s (s.receive n r) := by
  subst own
  unfold State.receive
  split
  next room => exact .single (.strand _ (.record r room))
  next full =>
    rw [State.raiseStrand_eq, State.modBillet, State.modStrand_eq, State.putStrand_putStrand,
      State.strand_putStrand_self]
    exact .single (.strand _ (.dropped (Nat.not_lt.1 full)))

theorem LineSteps.receiveAll {n : StrandId} (own : n = (s.channel m).cfg.strand) (rs : List DefectRecord) :
    LineSteps m s (s.receiveAll n rs) := by
  induction rs generalizing s with
  | nil => exact .refl
  | cons r rs ih =>
    have first := LineSteps.receive m s own r
    exact first.trans (ih _ (by rw [first.channelSteps.cfg_eq, own]))

theorem LineSteps.emit (minMm : Nat) (rs : List DefectRecord) : LineSteps m s (s.emit m minMm rs) := by
  have counted := LineSteps.countEmission m s minMm rs
  exact counted.trans (.receiveAll m _ (by rw [counted.channelSteps.cfg_eq]) _)

theorem LineSteps.flush : LineSteps m s (s.flush m) :=
  (LineSteps.channel .freed).trans (.emit m _ _ _)

theorem LineSteps.receiveLine {n : StrandId} (own : n = (s.channel m).cfg.strand) (a b : List DefectRecord) :
    LineSteps m s (s.receiveLine n a b) :=
  (LineSteps.single (.drawn _)).trans (.receiveAll m _ (by simpa using own) _)

end

/-! ### Locks -/

theorem freeTable_empty (tt : TrackTable) : (freeTable tt).Empty := fun i => by simp [freeTable]

section
variable (m : ChannelId) (s : State)

/-- A step that changes nothing but a counter leaves the table and the line processor of the channel. -/
theorem State.emit_channel (minMm : Nat) (rs : List DefectRecord) :
    (s.emit m minMm rs).channel m = { s.channel m with stats := ((s.emit m minMm rs).channel m).stats } := by
  have received : ∀ (n : StrandId) (rs : List DefectRecord) (u : State), (u.receiveAll n rs).channel m = u.channel m := by
    intro n rs u
    refine foldl_keeps (P := fun v => v.channel m = u.channel m) rs u rfl fun v r _ hv => ?_
    unfold State.receive
    split
    · simpa [State.modStrand_eq] using hv
    · simpa [State.modBillet, State.modStrand_eq, State.raiseStrand_eq] using hv
  rw [State.emit, received]
  simp [State.countEmission, State.raiseChannel, State.modChannel_eq]

/-- A flush frees the table and counts: nothing else of the channel changes (R111). -/
theorem State.flush_channel :
    (s.flush m).channel m =
      { s.channel m with tt := freeTable (s.channel m).tt, stats := ((s.flush m).channel m).stats } := by
  unfold State.flush
  dsimp only
  rw [State.emit_channel]
  simp [State.modTt_eq]

/-- A flush leaves the channel's state, and its slots FREE. -/
theorem State.flush_handles (handles : (s.channel m).lp.state.handles = true) :
    ((s.flush m).channel m).lp.state.handles = true ∧ ((s.flush m).channel m).tt.Empty := by
  rw [State.flush_channel]
  exact ⟨handles, freeTable_empty _⟩

theorem LineSteps.enterHardLock (cause : HardCause) (coord : Nat) (handles : (s.channel m).lp.state.handles = true) :
    LineSteps m s (s.enterHardLock m cause coord) := by
  obtain ⟨handles, empty⟩ := State.flush_handles m s handles
  exact ((((LineSteps.flush m s).trans (.channel (.locked cause handles empty))).trans
    (.raiseChannel m _ _ _)).trans (.reportFace m _ _)).trans (.lockNotice m _ _ _ _ _)

theorem LineSteps.headFault (coord : Nat) : LineSteps m s (s.headFault m coord) := by
  unfold State.headFault
  split
  iterate 3
    next state => exact .enterHardLock m s _ _ (by rw [state]; rfl)
  all_goals exact .refl

/-- A channel restart at a grade change (R51, R54). -/
theorem LineSteps.restartChannel (line : Nat) : LineSteps m s (s.restartChannel m line) := by
  have afresh : (s.channel m).lp.state.handles = true → LineSteps m s ((s.flush m).modLp m restartedLp) := by
    intro handles
    obtain ⟨handles, empty⟩ := State.flush_handles m s handles
    exact (LineSteps.flush m s).trans (.channel (.restarted handles empty))
  have warm : (((s.flush m).modLp m restartedLp).channel m).lp.state.handles = true := by
    rw [State.modLp_eq, State.channel_putChannel_self]
    rfl
  unfold State.restartChannel
  split
  iterate 3 exact .refl
  all_goals
    next state =>
    have afresh := afresh (by rw [state]; rfl)
    dsimp only
    split
    · exact afresh.trans (.enterHardLock m _ _ _ warm)
    · split
      · exact afresh.trans (.lockNotice m _ _ _ _ _)
      · exact afresh

theorem LineSteps.releaseChannel (locked : (s.channel m).hardLocked = true) : LineSteps m s (s.releaseChannel m) := by
  have handles : (s.channel m).lp.state.handles = true := by
    unfold Channel.hardLocked at locked
    split at locked
    · next state => rw [state]; rfl
    · exact nomatch locked
  have released : LineSteps m s ((s.modLp m releasedLp).modTt m freeTable) := by
    rw [State.modTt_eq, State.modLp_eq, State.channel_putChannel_self, State.putChannel_putChannel]
    exact .channel (.released handles)
  have warm : (((s.modLp m releasedLp).modTt m freeTable).channel m).lp.state.handles = true := by
    rw [State.modTt_eq, State.modLp_eq, State.channel_putChannel_self, State.channel_putChannel_self]
    rfl
  unfold State.releaseChannel
  dsimp only
  split
  · exact released.trans (.enterHardLock m _ _ _ warm)
  · exact released.trans (.lockNotice m _ _ _ _ _)

end

end Sys2Proof.Machine

/-! Run extraction (04, R56, R57): the runs of a line are the hulls of the groups into which the hits fall where more
than run_bridge columns separate two that follow one another. -/

namespace Sys2Proof.Machine

/-! ### Groups of hits -/

/-- Two hits that follow one another belong together: at most `bridge` columns lie between them (R56). -/
def bridged (bridge : Nat) (g h : Nat × Nat) : Bool := decide (h.1 ≤ g.1 + bridge + 1)

/-- The run over a group of hits in column order (R57). -/
def hull (group : List (Nat × Nat)) : Run where
  first := (group.headD (0, 0)).1
  last := (group.getLastD (0, 0)).1
  peak := (group.map (·.2)).foldl max 0

theorem hull_singleton (h : Nat × Nat) : hull [h] = ⟨h.1, h.1, h.2⟩ := by simp [hull]

theorem hull_append_last (group : List (Nat × Nat)) (h : Nat × Nat) : (hull (group ++ [h])).last = h.1 := by
  simp [hull]

/-- A group one hit longer: the run reaches to the hit. -/
theorem hull_extend {group : List (Nat × Nat)} (ne : group ≠ []) (h : Nat × Nat) :
    hull (group ++ [h]) = ⟨(hull group).first, h.1, max (hull group).peak h.2⟩ := by
  obtain ⟨a, rest, rfl⟩ := List.exists_cons_of_ne_nil ne
  simp [hull, List.getLastD]

/-- The groups closed so far stand before those still to come. -/
theorem splitBy_loop_eq_append {α : Type} {r : α → α → Bool} (l : List α) (a : α) (g : List α) (gs : List (List α)) :
    List.splitBy.loop r l a g gs = gs.reverse ++ List.splitBy.loop r l a g [] := by
  induction l generalizing a g gs with
  | nil => simp [List.splitBy.loop]
  | cons b l ih =>
    simp only [List.splitBy.loop]
    split
    · exact ih b (a :: g) gs
    · rw [ih b [] ((a :: g).reverse :: gs), ih b [] [(a :: g).reverse]]
      simp

theorem gatherRuns_eq_hulls (bridge : Nat) (hits : List (Nat × Nat)) (a : Nat × Nat) (g : List (Nat × Nat)) :
    gatherRuns bridge (some (hull (a :: g).reverse)) hits =
      (List.splitBy.loop (bridged bridge) hits a g []).map hull := by
  induction hits generalizing a g with
  | nil => simp [gatherRuns, List.splitBy.loop]
  | cons h hits ih =>
    have last : (hull (a :: g).reverse).last = a.1 := by rw [List.reverse_cons, hull_append_last]
    simp only [gatherRuns, List.splitBy.loop, last, bridged]
    by_cases near : h.1 ≤ a.1 + bridge + 1
    · have extended := hull_extend (group := (a :: g).reverse) (by simp) h
      rw [if_pos near, decide_eq_true near, ← ih, List.reverse_cons (a := h), extended]
    · rw [if_neg near, decide_eq_false near]
      have rest := splitBy_loop_eq_append (r := bridged bridge) hits h [] [(a :: g).reverse]
      change _ = List.map hull (List.splitBy.loop (bridged bridge) hits h [] [(a :: g).reverse])
      rw [rest, ← hull_singleton, List.map_append, ← ih h []]
      simp

/-- The runs of a line are the hulls of its groups of hits. -/
theorem runsOf_eq_hulls (bridge : Nat) (hits : List (Nat × Nat)) :
    runsOf bridge hits = (hits.splitBy (bridged bridge)).map hull := by
  cases hits with
  | nil => rfl
  | cons h hits =>
    rw [runsOf, gatherRuns, ← hull_singleton]
    exact gatherRuns_eq_hulls bridge hits h []

/-! ### One group in column order -/

/-- Hits stand in column order (R48). -/
def InColumnOrder (hits : List (Nat × Nat)) : Prop := hits.Pairwise fun g h => g.1 < h.1

section
variable {group : List (Nat × Nat)}

theorem hull_first_le (order : InColumnOrder group) {h : Nat × Nat} (mem : h ∈ group) : (hull group).first ≤ h.1 := by
  cases group with
  | nil => exact nomatch mem
  | cons a rest =>
    rcases List.mem_cons.1 mem with rfl | later
    · exact Nat.le_refl _
    · exact Nat.le_of_lt (List.rel_of_pairwise_cons order later)

theorem le_hull_last (order : InColumnOrder group) {h : Nat × Nat} (mem : h ∈ group) : h.1 ≤ (hull group).last := by
  obtain ⟨front, b, rfl⟩ := List.eq_nil_or_concat group |>.resolve_left (List.ne_nil_of_mem mem)
  rw [List.concat_eq_append] at mem order ⊢
  rw [hull_append_last]
  rcases List.mem_append.1 mem with earlier | rest
  · exact Nat.le_of_lt ((List.pairwise_append.1 order).2.2 h earlier b (by simp))
  · rw [List.mem_singleton.1 rest]

theorem hull_first_mem (ne : group ≠ []) : ∃ p, ((hull group).first, p) ∈ group := by
  obtain ⟨a, rest, rfl⟩ := List.exists_cons_of_ne_nil ne
  exact ⟨a.2, by simp [hull]⟩

theorem hull_last_mem (ne : group ≠ []) : ∃ p, ((hull group).last, p) ∈ group := by
  obtain ⟨front, b, rfl⟩ := List.eq_nil_or_concat group |>.resolve_left ne
  rw [List.concat_eq_append, hull_append_last]
  exact ⟨b.2, by simp⟩

theorem hull_first_le_last (order : InColumnOrder group) (ne : group ≠ []) :
    (hull group).first ≤ (hull group).last := by
  obtain ⟨p, mem⟩ := hull_first_mem ne
  have le := le_hull_last order mem
  exact le

theorem le_foldl_max (l : List Nat) (start : Nat) : start ≤ l.foldl max start ∧ ∀ v ∈ l, v ≤ l.foldl max start := by
  induction l generalizing start with
  | nil => simp
  | cons a l ih =>
    obtain ⟨base, all⟩ := ih (max start a)
    refine ⟨Nat.le_trans (Nat.le_max_left ..) base, fun v mem => ?_⟩
    rcases List.mem_cons.1 mem with rfl | later
    · exact Nat.le_trans (Nat.le_max_right ..) base
    · exact all v later

theorem foldl_max_mem (l : List Nat) (start : Nat) : l.foldl max start = start ∨ l.foldl max start ∈ l := by
  induction l generalizing start with
  | nil => exact .inl rfl
  | cons a l ih =>
    rw [List.foldl_cons]
    rcases ih (max start a) with same | mem
    · rcases Nat.le_total start a with le | le
      · rw [Nat.max_eq_right le] at same ⊢
        exact .inr (by rw [same]; exact List.mem_cons_self)
      · rw [Nat.max_eq_left le] at same ⊢
        exact .inl same
    · exact .inr (List.mem_cons_of_mem _ mem)

/-- The peak of a run is the largest residual of its hits (R57). -/
theorem le_hull_peak {h : Nat × Nat} (mem : h ∈ group) : h.2 ≤ (hull group).peak :=
  (le_foldl_max _ 0).2 _ (List.mem_map_of_mem mem)

theorem hull_peak_mem (ne : group ≠ []) : ∃ h ∈ group, h.2 = (hull group).peak := by
  rcases foldl_max_mem (group.map (·.2)) 0 with zero | mem
  · obtain ⟨a, rest, rfl⟩ := List.exists_cons_of_ne_nil ne
    refine ⟨a, List.mem_cons_self, ?_⟩
    have le := le_hull_peak (group := a :: rest) List.mem_cons_self
    have peak : (hull (a :: rest)).peak = 0 := zero
    omega
  · obtain ⟨h, hmem, eq⟩ := List.mem_map.1 mem
    exact ⟨h, hmem, eq⟩

/-- Within a group, two hits with none between them belong together. -/
theorem near_of_chain {bridge : Nat} {left right : List (Nat × Nat)} {g h : Nat × Nat}
    (order : InColumnOrder group) (chain : group.IsChain fun a b => bridged bridge a b)
    (hits : List (Nat × Nat)) (sub : group.Sublist hits) (eq : hits = left ++ g :: h :: right)
    (ordered : InColumnOrder hits) (gmem : g ∈ group) (hmem : h ∈ group) : h.1 ≤ g.1 + bridge + 1 := by
  obtain ⟨before, after, rfl⟩ := List.append_of_mem gmem
  have noneBetween : ∀ b ∈ hits, g.1 < b.1 → h.1 ≤ b.1 := by
    intro b mem later
    subst eq
    obtain ⟨-, tail, cross⟩ := List.pairwise_append.1 ordered
    obtain ⟨first, second⟩ := List.pairwise_cons.1 tail
    rcases List.mem_append.1 mem with inLeft | inRight
    · exact absurd (cross b inLeft g List.mem_cons_self) (by omega)
    · rcases List.mem_cons.1 inRight with rfl | inRest
      · omega
      · rcases List.mem_cons.1 inRest with rfl | inRight
        · exact Nat.le_refl _
        · exact Nat.le_of_lt ((List.pairwise_cons.1 second).1 b inRight)
  have above : g.1 < h.1 := by
    subst eq
    exact (List.pairwise_cons.1 (List.pairwise_append.1 ordered).2.1).1 h List.mem_cons_self
  obtain ⟨-, tail, cross⟩ := List.pairwise_append.1 order
  cases after with
  | nil =>
    rcases List.mem_append.1 hmem with inBefore | last
    · exact absurd (cross h inBefore g List.mem_cons_self) (by omega)
    · rw [List.mem_singleton.1 last] at above
      omega
  | cons b after =>
    have next : b.1 ≤ g.1 + bridge + 1 := by
      have step := (List.isChain_cons_cons.1 (List.IsChain.right_of_append chain)).1
      exact of_decide_eq_true step
    have le := noneBetween b (sub.subset (by simp)) ((List.pairwise_cons.1 tail).1 b List.mem_cons_self)
    omega

end

/-! ### All the groups of a line -/

section
variable {bridge : Nat} {hits : List (Nat × Nat)} (ordered : InColumnOrder hits)
include ordered

theorem inColumnOrder_of_group {group : List (Nat × Nat)} (mem : group ∈ hits.splitBy (bridged bridge)) :
    InColumnOrder group := by
  have flat := ordered
  rw [← List.flatten_splitBy (bridged bridge) hits] at flat
  exact (List.pairwise_flatten.1 flat).1 group mem

omit ordered in
theorem mem_hits_of_group {group : List (Nat × Nat)} (mem : group ∈ hits.splitBy (bridged bridge)) :
    group.Sublist hits := by
  have sub := List.sublist_flatten_of_mem mem
  rwa [List.flatten_splitBy] at sub

omit ordered in
/-- Each run stands beyond the one before it, and so beyond all before it. -/
theorem pairwise_of_chain_of_runs {d : Nat} {runs : List Run} (within : ∀ run ∈ runs, run.first ≤ run.last)
    (chain : runs.IsChain fun a b => a.last + d < b.first) : runs.Pairwise fun a b => a.last + d < b.first := by
  induction runs with
  | nil => exact .nil
  | cons a runs ih =>
    have later := ih (fun run mem => within run (List.mem_cons_of_mem _ mem)) chain.of_cons
    refine List.pairwise_cons.2 ⟨fun b mem => ?_, later⟩
    cases runs with
    | nil => exact nomatch mem
    | cons c runs =>
      have next := (List.isChain_cons_cons.1 chain).1
      rcases List.mem_cons.1 mem with rfl | beyond
      · exact next
      · have far := (List.pairwise_cons.1 later).1 b beyond
        have own := within c (by simp)
        omega

/-- The runs stand from left to right with more than `bridge` columns between them. -/
theorem runsOf_apart : (runsOf bridge hits).Pairwise fun a b => a.last + (bridge + 1) < b.first := by
  refine pairwise_of_chain_of_runs (fun run mem => ?_) ?_
  · obtain ⟨group, gmem, rfl⟩ := List.mem_map.1 (runsOf_eq_hulls bridge hits ▸ mem)
    exact hull_first_le_last (inColumnOrder_of_group ordered gmem) (List.ne_nil_of_mem_splitBy gmem)
  · rw [runsOf_eq_hulls]
    refine List.isChain_map_of_isChain _ ?_ (List.isChain_getLast_head_splitBy (bridged bridge) hits)
    rintro a b ⟨ha, hb, far⟩
    have far := of_decide_eq_false far
    obtain ⟨c, rest, rfl⟩ := List.exists_cons_of_ne_nil hb
    obtain ⟨front, d, rfl⟩ := List.eq_nil_or_concat a |>.resolve_left ha
    simp only [List.concat_eq_append, List.getLast_append_singleton, List.head_cons] at far
    rw [List.concat_eq_append, hull_append_last]
    simp only [hull, List.headD_cons]
    omega

/-- Two groups are the same, or their runs stand apart. -/
theorem runs_eq_or_apart {group other : List (Nat × Nat)} (gmem : group ∈ hits.splitBy (bridged bridge))
    (omem : other ∈ hits.splitBy (bridged bridge)) :
    group = other ∨ (hull group).last + (bridge + 1) < (hull other).first ∨
      (hull other).last + (bridge + 1) < (hull group).first := by
  have runs := runsOf_apart (bridge := bridge) ordered
  rw [runsOf_eq_hulls, List.pairwise_map] at runs
  have symm : Std.Symm fun a b : List (Nat × Nat) =>
      (hull a).last + (bridge + 1) < (hull b).first ∨ (hull b).last + (bridge + 1) < (hull a).first :=
    ⟨fun _ _ => Or.symm⟩
  by_cases same : group = other
  · exact .inl same
  · have apart := (runs.imp fun far => Or.inl far).forall (R := fun a b : List (Nat × Nat) =>
      (hull a).last + (bridge + 1) < (hull b).first ∨ (hull b).last + (bridge + 1) < (hull a).first) gmem omem same
    exact .inr apart

/-- A hit within the columns of a run is one of its group. -/
theorem mem_group_of_holds {group : List (Nat × Nat)} (gmem : group ∈ hits.splitBy (bridged bridge)) {h : Nat × Nat}
    (mem : h ∈ hits) (low : (hull group).first ≤ h.1) (high : h.1 ≤ (hull group).last) : h ∈ group := by
  obtain ⟨other, omem, hmem⟩ := List.mem_flatten.1 ((List.flatten_splitBy (bridged bridge) hits).symm ▸ mem)
  have first := hull_first_le (inColumnOrder_of_group ordered omem) hmem
  have last := le_hull_last (inColumnOrder_of_group ordered omem) hmem
  rcases runs_eq_or_apart ordered gmem omem with same | far | far
  · exact same ▸ hmem
  · omega
  · omega

end

/-- Settles O59: runs are the hulls of the groups of hits; a hit lies within a run exactly when it is of its group, and
two neighbours that no run holds together stand in two runs, more than `bridge` columns apart. -/
theorem runsJoinHitsAcrossTheBridge : Obligations.RunsJoinHitsAcrossTheBridge := by
  intro bridge hits sorted runs holds
  have ordered : InColumnOrder hits := List.pairwise_map.1 sorted
  have ofGroup : ∀ run ∈ runs, ∃ group ∈ hits.splitBy (bridged bridge), hull group = run := fun run mem =>
    List.mem_map.1 (runsOf_eq_hulls bridge hits ▸ mem)
  have held : ∀ h ∈ hits, ∃ group ∈ hits.splitBy (bridged bridge), h ∈ group := fun h mem =>
    List.mem_flatten.1 ((List.flatten_splitBy (bridged bridge) hits).symm ▸ mem)
  have isRun : ∀ group ∈ hits.splitBy (bridged bridge), hull group ∈ runs := fun group gmem => by
    simp only [runs, runsOf_eq_hulls]
    exact List.mem_map_of_mem gmem
  have within : ∀ group ∈ hits.splitBy (bridged bridge), ∀ h ∈ group, holds (hull group) h := fun group gmem h mem =>
    ⟨hull_first_le (inColumnOrder_of_group ordered gmem) mem, le_hull_last (inColumnOrder_of_group ordered gmem) mem⟩
  refine ⟨fun run mem => ?_, fun h mem => ?_, (runsOf_apart ordered).imp fun far => by omega, ?_⟩
  · obtain ⟨group, gmem, rfl⟩ := ofGroup run mem
    have ne := List.ne_nil_of_mem_splitBy gmem
    have sub := (mem_hits_of_group gmem).subset
    obtain ⟨p, first⟩ := hull_first_mem ne
    obtain ⟨q, last⟩ := hull_last_mem ne
    obtain ⟨h, hmem, peak⟩ := hull_peak_mem ne
    refine ⟨⟨p, sub first⟩, ⟨q, sub last⟩, hull_first_le_last (inColumnOrder_of_group ordered gmem) ne,
      ⟨h, sub hmem, within group gmem h hmem, peak⟩, fun h mem inside => ?_⟩
    exact le_hull_peak (mem_group_of_holds ordered gmem mem inside.1 inside.2)
  · obtain ⟨group, gmem, hmem⟩ := held h mem
    exact ⟨hull group, isRun group gmem, within group gmem h hmem⟩
  · intro left g h right eq
    have gmem : g ∈ hits := by simp [eq]
    have hmem : h ∈ hits := by simp [eq]
    constructor
    · rintro ⟨run, mem, inG, inH⟩
      obtain ⟨group, grp, rfl⟩ := ofGroup run mem
      exact near_of_chain (inColumnOrder_of_group ordered grp) (List.isChain_of_mem_splitBy grp) hits
        (mem_hits_of_group grp) eq ordered (mem_group_of_holds ordered grp gmem inG.1 inG.2)
        (mem_group_of_holds ordered grp hmem inH.1 inH.2)
    · intro near
      obtain ⟨group, grp, inG⟩ := held g gmem
      obtain ⟨other, oth, inH⟩ := held h hmem
      have holdsG := within group grp g inG
      have holdsH := within other oth h inH
      have above : g.1 < h.1 := by
        subst eq
        exact (List.pairwise_cons.1 (List.pairwise_append.1 ordered).2.1).1 h List.mem_cons_self
      rcases runs_eq_or_apart ordered grp oth with same | far | far
      · exact ⟨hull group, isRun group grp, holdsG, same ▸ holdsH⟩
      · simp only [holds] at holdsG holdsH
        omega
      · simp only [holds] at holdsG holdsH
        omega

end Sys2Proof.Machine

/-! A settled line (02 to 06), by what becomes of it: a line that is TAKEN and clear in WARMUP or ACTIVE is processed
and leaves the locks alone; any other is held and may move them. In both cases it goes by steps of a line. -/

namespace Sys2Proof.Machine

/-! ### The runs of a line -/

theorem hitAt_column {r : Recipe} {samples : List Sample} {cols : Vector Column 256} {c : Nat} {h : Nat × Nat}
    (hit : hitAt r samples cols c = some h) : h.1 = c := by
  unfold hitAt at hit
  dsimp only at hit
  split at hit
  · rw [← Option.some.inj hit]
  · exact nomatch hit

/-- The hits of a line stand in column order (R48). -/
theorem lineHits_ordered (r : Recipe) (groups : Nat) (samples : List Sample) (cols : Vector Column 256) :
    InColumnOrder (lineHits r groups samples cols) := by
  have columns : (windowColumns r groups).Pairwise (· < ·) := List.pairwise_lt_range.filter _
  refine List.pairwise_filterMap.2 (columns.imp fun {a b} lt g hg h hh => ?_)
  rw [hitAt_column hg, hitAt_column hh]
  exact lt

theorem runsOf_first_le_last {bridge : Nat} {hits : List (Nat × Nat)} (ordered : InColumnOrder hits) {run : Run}
    (mem : run ∈ runsOf bridge hits) : run.first ≤ run.last := by
  obtain ⟨group, gmem, rfl⟩ := List.mem_map.1 (runsOf_eq_hulls bridge hits ▸ mem)
  exact hull_first_le_last (inColumnOrder_of_group ordered gmem) (List.ne_nil_of_mem_splitBy gmem)

theorem sortRuns_narrow_sound (r : Recipe) (gate : Bool) {hits : List (Nat × Nat)} (ordered : InColumnOrder hits) :
    ∀ run ∈ (sortRuns r gate hits).narrow, run.first ≤ run.last := fun _ mem =>
  runsOf_first_le_last ordered (List.mem_of_mem_take (List.mem_of_mem_filter mem))

/-! ### A settled line -/

/-- A line is processed: TAKEN and clear, in WARMUP or ACTIVE (R41). -/
def ChannelState.processes (clear : Bool) : ChannelState → Bool
  | .warmup | .active => clear
  | .disabled | .idle | .softLock _ | .hardLock _ => false

/-- The line is obscured for the channel; in HARD_LOCK no test is made (R76, R85). -/
def Channel.sees (c : Channel) (r : Recipe) (out : LineOutcome) : Bool :=
  !c.hardLocked && takenObscured r c.cfg.groups c.lp out

/-- The line is TAKEN and clear for the channel (R41, R77). -/
def Channel.clearOn (c : Channel) (r : Recipe) (out : LineOutcome) : Bool := !out.lost && !c.sees r out

/-- The state in which a line has passed the filter and is entered and counted, and neither processed nor held. -/
def State.entered (s : State) (m : ChannelId) (line : Nat) (r : Recipe) (out : LineOutcome) : State :=
  let c := s.channel m
  let lp := filterAfter out.lost (c.clearOn r out) c.lp
  (s.modLp m fun _ =>
    { lp with log := enterCoverage line (coverageClass c.lp.state out.lost (c.sees r out)) lp.log }).raiseChannel m
    .obscuredLines (c.sees r out).toNat

section
variable {s : State} {m : ChannelId}

theorem State.handleLine_of_not_handles (idle : (s.channel m).lp.state.handles = false) (x : Settlement) :
    s.handleLine m x = s := by
  unfold State.handleLine
  dsimp only
  split
  · rfl
  · rfl
  · rfl
  · next _ not_disabled not_idle =>
      cases st : (s.channel m).lp.state with
      | disabled => exact absurd st not_disabled
      | idle => exact absurd st not_idle
      | warmup | active | softLock _ | hardLock _ => rw [st] at idle; exact nomatch idle

theorem State.handleLine_of_no_recipe (x : Settlement) (none : recipeAt (s.strandOf m).history x.coord = none) :
    s.handleLine m x = s := by
  unfold State.handleLine
  dsimp only
  rw [none]
  split
  · rfl
  · rfl
  · rfl
  · next h _ _ => exact nomatch h

/-- A line that is handled is entered, then processed or held, and its end applied. -/
theorem State.handleLine_of_handles (handles : (s.channel m).lp.state.handles = true) (x : Settlement) {r : Recipe}
    (recipe : recipeAt (s.strandOf m).history x.coord = some r) :
    s.handleLine m x =
      ((s.entered m x.coord r x.outcome).processLine m x.coord r ((s.channel m).clearOn r x.outcome)
        x.outcome).finishLine m x.coord
        (endOfLine r x.outcome.lost (filterAfter x.outcome.lost ((s.channel m).clearOn r x.outcome) (s.channel m).lp)) := by
  unfold State.handleLine
  dsimp only
  rw [recipe]
  split
  · next h => rw [h] at handles; exact nomatch handles
  · next h => rw [h] at handles; exact nomatch handles
  · next h _ _ => exact nomatch h
  · next h _ _ =>
      obtain rfl := Option.some.inj h
      rfl

/-- The filter leaves the state, the columns and the warm-up count. -/
theorem filterAfter_kept (lost clear : Bool) (lp : LineProcessor) :
    (filterAfter lost clear lp).state = lp.state ∧ (filterAfter lost clear lp).columns = lp.columns ∧
      (filterAfter lost clear lp).warmCount = lp.warmCount ∧ (filterAfter lost clear lp).log = lp.log := by
  unfold filterAfter
  split <;> exact ⟨rfl, rfl, rfl, rfl⟩

theorem State.entered_channel (line : Nat) (r : Recipe) (out : LineOutcome) :
    (s.entered m line r out).channel m =
      { s.channel m with
        lp :=
          { filterAfter out.lost ((s.channel m).clearOn r out) (s.channel m).lp with
            log := enterCoverage line (coverageClass (s.channel m).lp.state out.lost ((s.channel m).sees r out))
              (s.channel m).lp.log }
        stats := ((s.entered m line r out).channel m).stats } := by
  obtain ⟨-, -, -, log⟩ := filterAfter_kept out.lost ((s.channel m).clearOn r out) (s.channel m).lp
  unfold State.entered
  simp [State.raiseChannel, State.modChannel_eq, State.modLp_eq, log]

theorem State.entered_state (line : Nat) (r : Recipe) (out : LineOutcome) :
    ((s.entered m line r out).channel m).lp.state = (s.channel m).lp.state := by
  rw [State.entered_channel]
  exact (filterAfter_kept ..).1

/-- A line that is not processed is held. -/
theorem State.processLine_of_not_processes {r : Recipe} {line : Nat} {clear : Bool} {out : LineOutcome}
    (held : (s.channel m).lp.state.processes clear = false) :
    s.processLine m line r clear out = s.holdTracks m line r := by
  unfold State.processLine
  split
  · next active =>
      rw [active] at held
      rw [show clear = false from held]
      rfl
  · next warmup =>
      rw [warmup] at held
      rw [show clear = false from held]
      rfl
  · rfl

/-- After a clear line in WARMUP or ACTIVE the locks stay (R77 to R81). -/
theorem endOfLine_of_processes {r : Recipe} {lost clear : Bool} {lp : LineProcessor}
    (processes : lp.state.processes clear = true) (delivered : lost = false) :
    endOfLine r lost (filterAfter lost clear lp) = .stay := by
  subst delivered
  cases st : lp.state with
  | warmup | active =>
    rw [st] at processes
    have clear : clear = true := processes
    simp [endOfLine, filterAfter, st, clear, endUnlocked, linkDead]
  | disabled | idle | softLock _ | hardLock _ =>
    rw [st] at processes
    exact nomatch processes

/-- A line that is processed leaves the locks alone. -/
theorem State.handleLine_of_processes (x : Settlement) {r : Recipe}
    (recipe : recipeAt (s.strandOf m).history x.coord = some r)
    (processes : (s.channel m).lp.state.processes ((s.channel m).clearOn r x.outcome) = true) :
    s.handleLine m x =
      (s.entered m x.coord r x.outcome).processLine m x.coord r ((s.channel m).clearOn r x.outcome) x.outcome := by
  have handles : (s.channel m).lp.state.handles = true := by
    cases st : (s.channel m).lp.state with
    | disabled | idle => rw [st] at processes; exact nomatch processes
    | warmup | active | softLock _ | hardLock _ => rfl
  have clear : (s.channel m).clearOn r x.outcome = true := by
    cases st : (s.channel m).lp.state with
    | warmup | active => rwa [st] at processes
    | disabled | idle | softLock _ | hardLock _ => rw [st] at processes; exact nomatch processes
  have delivered : x.outcome.lost = false := by
    simp only [Channel.clearOn, Bool.and_eq_true, Bool.not_eq_true'] at clear
    exact clear.1
  rw [State.handleLine_of_handles handles x recipe, endOfLine_of_processes processes delivered]
  rfl

/-- A line that is not processed is held, and its end applied. -/
theorem State.handleLine_of_held (handles : (s.channel m).lp.state.handles = true) (x : Settlement) {r : Recipe}
    (recipe : recipeAt (s.strandOf m).history x.coord = some r)
    (held : (s.channel m).lp.state.processes ((s.channel m).clearOn r x.outcome) = false) :
    s.handleLine m x =
      ((s.entered m x.coord r x.outcome).holdTracks m x.coord r).finishLine m x.coord
        (endOfLine r x.outcome.lost (filterAfter x.outcome.lost ((s.channel m).clearOn r x.outcome) (s.channel m).lp)) := by
  rw [State.handleLine_of_handles handles x recipe,
    State.processLine_of_not_processes (by rwa [State.entered_state])]

end

/-! ### Lines as steps -/

/-- The samples of a TAKEN line have 12 bits (R186). -/
def LineOutcome.InRange : LineOutcome → Prop
  | .taken samples => ∀ x ∈ samples, x.value < 4096
  | .missed | .discarded _ => True

theorem LineSteps.entered (m : ChannelId) (s : State) (line : Nat) (r : Recipe) (out : LineOutcome) :
    LineSteps m s (s.entered m line r out) :=
  (LineSteps.channel (.logged out.lost ((s.channel m).clearOn r out) line _)).trans (.raiseChannel m _ _ _)

theorem LineSteps.holdTracks (m : ChannelId) (s : State) (line : Nat) (r : Recipe) :
    LineSteps m s (s.holdTracks m line r) := .channel (.held _ line r)

theorem LineSteps.then_receiveLine {m : ChannelId} {s t : State} (steps : LineSteps m s t) (a b : List DefectRecord) :
    LineSteps m s (t.receiveLine (s.channel m).cfg.strand a b) :=
  steps.trans (.receiveLine m t (by rw [steps.channelSteps.cfg_eq]) a b)

theorem LineSteps.processActive (m : ChannelId) (s : State) (line : Nat) (r : Recipe) (samples : List Sample)
    (small : ∀ x ∈ samples, x.value < 4096) (active : (s.channel m).lp.state = .active) :
    LineSteps m s (s.processActive m line r samples) := by
  unfold State.processActive
  dsimp only
  refine .then_receiveLine ?_ _ _
  refine LineSteps.trans ?_ (.countEmission m _ _ _)
  refine LineSteps.trans ?_ (.reportWhen m _ _ _)
  refine LineSteps.trans ?_ (.reportWhen m _ _ _)
  refine LineSteps.trans ?_ (.countAssociation m _ _)
  refine LineSteps.trans ?_ (.countRuns m _ (sortRuns_transverses_le ..))
  rw [State.modTt_eq, State.modLp_eq, State.channel_putChannel_self, State.putChannel_putChannel]
  exact .channel (.processed _ line r samples _ _ small (sortRuns_narrow_sound _ _ (lineHits_ordered ..)) active)

theorem LineSteps.processLine (m : ChannelId) (s : State) (line : Nat) (r : Recipe) (clear : Bool) {out : LineOutcome}
    (small : out.InRange) : LineSteps m s (s.processLine m line r clear out) := by
  unfold State.processLine
  split
  · next active =>
      split
      · exact .processActive m s line r _ small active
      · exact .holdTracks m s line r
  · next warmup =>
      split
      · exact (LineSteps.channel (.warmed r _ small warmup)).trans (.holdTracks m _ line r)
      · exact .holdTracks m s line r
  · exact .holdTracks m s line r

/-- The end of a line enters SOFT_LOCK only from the state that it notes as left, and leaves it only from SOFT_LOCK. -/
def EndOfLine.Fits (st : ChannelState) : EndOfLine → Prop
  | .stay => True
  | .enterHard _ => st.handles = true
  | .enterSoft left => st = leftChannelState left
  | .leaveSoft left => st = .softLock left

theorem endOfLine_fits (r : Recipe) (lost : Bool) (lp : LineProcessor) : (endOfLine r lost lp).Fits lp.state := by
  unfold endOfLine endUnlocked
  split
  iterate 3
    next state =>
      rw [state]
      repeat' split
      all_goals trivial
  all_goals trivial

theorem LineSteps.finishLine (m : ChannelId) (s : State) (line : Nat) {e : EndOfLine}
    (fits : e.Fits (s.channel m).lp.state) : LineSteps m s (s.finishLine m line e) := by
  cases e with
  | stay => exact .refl
  | enterSoft left =>
    exact ((LineSteps.channel (.softened left fits)).trans (.raiseChannel m _ _ _)).trans (.lockNotice m _ _ _ _ _)
  | leaveSoft left => exact (LineSteps.channel (.cleared left fits)).trans (.lockNotice m _ _ _ _ _)
  | enterHard cause => exact .enterHardLock m s cause line fits

theorem LineSteps.handleLine (m : ChannelId) (s : State) (x : Settlement)
    (small : x.outcome.InRange) : LineSteps m s (s.handleLine m x) := by
  cases handles : (s.channel m).lp.state.handles with
  | false =>
    rw [State.handleLine_of_not_handles handles]
    exact .refl
  | true =>
    cases recipe : recipeAt (s.strandOf m).history x.coord with
    | none =>
      rw [State.handleLine_of_no_recipe x recipe]
      exact .refl
    | some r =>
      cases processes : (s.channel m).lp.state.processes ((s.channel m).clearOn r x.outcome) with
      | true =>
        rw [State.handleLine_of_processes x recipe processes]
        exact (LineSteps.entered m s _ _ _).trans (.processLine m _ _ _ _ small)
      | false =>
        rw [State.handleLine_of_held handles x recipe processes]
        refine ((LineSteps.entered m s _ _ _).trans (.holdTracks m _ _ _)).trans (.finishLine m _ _ ?_)
        have fits := endOfLine_fits r x.outcome.lost
          (filterAfter x.outcome.lost ((s.channel m).clearOn r x.outcome) (s.channel m).lp)
        rw [(filterAfter_kept ..).1, ← State.entered_state x.coord r x.outcome] at fits
        simpa [State.holdTracks, State.modTt_eq] using fits

/-! ### Settlements and frames as steps -/

/-- The samples of a frame have 12 bits (R186). -/
theorem frameSamples_small (f : ScanFrame) : ∀ x ∈ frameSamples f, x.value < 4096 := by
  have pair : ∀ (b0 b1 b2 : Byte), ∀ v ∈ unpackPair b0 b1 b2, v < 4096 := by
    intro b0 b1 b2 v mem
    simp only [unpackPair, List.mem_cons, List.not_mem_nil, or_false] at mem
    have := b0.isLt
    have := b1.isLt
    have := b2.isLt
    omega
  intro x mem
  obtain ⟨group, -, inGroup⟩ := List.mem_flatMap.1 mem
  unfold unpackGroup at inGroup
  split at inGroup
  · simp only [List.mem_map, List.mem_append] at inGroup
    obtain ⟨v, ((own | own) | own) | own, rfl⟩ := inGroup
    all_goals exact pair _ _ _ v own
  · exact nomatch inGroup

section
variable (m : ChannelId) (s : State)

theorem LineSteps.endAwait (last : Option Byte) : LineSteps m s (s.endAwait m last) :=
  .channel (.receiver _ fun _ => ⟨fun _ => rfl, fun _ => rfl⟩)

theorem LineSteps.settle (last : Byte) (x : Settlement) (small : x.outcome.InRange) :
    LineSteps m s (s.settle m last x) := (LineSteps.endAwait m s _).trans (.handleLine m _ x small)

theorem LineSteps.settleMissed : LineSteps m s (s.settleMissed m) := by
  unfold State.settleMissed
  split
  · exact .refl
  · exact (LineSteps.raiseChannel m s _ _).trans (.settle m _ _ _ trivial)

theorem LineSteps.discard (cause : DiscardCause) : LineSteps m s (s.discard m cause) := by
  have counted : LineSteps m s (s.raiseChannel m cause.counter) :=
    .raiseChannel m s _ _ (by cases cause <;> decide)
  unfold State.discard
  dsimp only
  split
  · exact counted
  · exact counted.trans (.settle m _ _ _ trivial)

theorem LineSteps.abandon : LineSteps m s (s.abandon m) := by
  unfold State.abandon
  split
  · exact .refl
  · exact .endAwait m s _

theorem LineSteps.hunt : LineSteps m s (s.hunt m) := .channel (.receiver _ id)

theorem LineSteps.framingFailure : LineSteps m s (s.framingFailure m) := by
  unfold State.framingFailure
  split
  · exact .discard m s _
  · exact .raiseChannel m s _ _

theorem LineSteps.tagMismatch (k line : Nat) (received : Byte) : LineSteps m s (s.tagMismatch m k line received) := by
  unfold State.tagMismatch
  refine LineSteps.trans ?_ (.offer m _ _ _)
  refine ((LineSteps.raiseChannel m s DiscardCause.tagMismatch.counter 1).trans
    (.settle m _ received ⟨k, line, .discarded .tagMismatch⟩ trivial)).trans ?_
  exact .channel (.receiver _ id)

theorem LineSteps.testTag (f : ScanFrame) : LineSteps m s (s.testTag m f) := by
  unfold State.testTag
  dsimp only
  split
  · split
    · exact ((LineSteps.raiseChannel m s _ _).trans (.raiseChannel m _ _ _)).trans (.settle m _ _ _ (frameSamples_small f))
    split
    · exact .raiseChannel m s _ _
    · exact .tagMismatch m s _ _ _
  · split
    · exact .raiseChannel m s _ _
    · exact .raiseChannel m s _ _

theorem LineSteps.classify (f : ScanFrame) : LineSteps m s (s.classify m f) := by
  unfold State.classify
  dsimp only
  split
  · exact .raiseChannel m s _ _
  split
  · exact .raiseChannel m s _ _
  split
  · exact (LineSteps.discard m s _).trans (.headFault m _ _)
  split
  · exact .discard m s _
  · exact .testTag m s f

theorem LineSteps.beginAwait (k line : Nat) : LineSteps m s (s.beginAwait m k line) :=
  .channel (.receiver _ fun _ => ⟨nofun, nofun⟩)

theorem LineSteps.takeTrigger (k line : Nat) (restart : Bool) : LineSteps m s (s.takeTrigger k line restart m) := by
  unfold State.takeTrigger
  dsimp only
  refine ((LineSteps.settleMissed m s).trans ?_).trans (.beginAwait m _ k line)
  split
  · exact .restartChannel m _ line
  · exact .refl

theorem LineSteps.takeCoverage (pitch tail : Nat) : LineSteps m s (s.takeCoverage pitch tail m) :=
  .channel (.covered pitch tail)

theorem LineSteps.splitTracks (k : Nat) : LineSteps m s (s.splitTracks m k) :=
  (LineSteps.channel (.split _ k)).trans (.countEmission m _ _ _)

theorem LineSteps.freeTracks : LineSteps m s (s.modTt m freeTable) := .channel .freed

end

end Sys2Proof.Machine

/-! Properties of the channels that every command keeps (02 to 06): it is enough that a property is kept by the steps of
a line, by the entry to IDLE with the slots FREE, and where a channel starts afresh. -/

namespace Sys2Proof.Machine

/-! ### Events handed to channels one by one -/

/-- What each element brings about, and no element undoes, holds for all of them at the end. -/
theorem foldl_establishes {α β : Type} {Q : α → β → Prop} {f : β → α → β} (l : List α) (s : β)
    (brings : ∀ t a, Q a (f t a)) (keeps : ∀ t a b, Q b t → Q b (f t a)) : ∀ a ∈ l, Q a (l.foldl f s) := by
  induction l generalizing s with
  | nil => exact fun a mem => nomatch mem
  | cons b l ih =>
    intro a mem
    rcases List.mem_cons.1 mem with rfl | later
    · exact foldl_keeps l _ (brings s a) fun t c _ ht => keeps t c a ht
    · exact ih (f s b) a later

/-! ### Properties of a channel -/

/-- A property that a channel keeps through everything that can become of it. -/
structure ChannelInvariant (R : Channel → Prop) : Prop where
  step {c d : Channel} (step : ChannelStep c d) (h : R c) : R d
  toIdle {c : Channel} (empty : c.tt.Empty) (h : R c) : R { c with lp := LineProcessor.initial .idle }
  started {c : Channel} (h : R c) : R (startedChannel c)
  configured {c : Channel} (cfg : ChannelConfig) (h : R c) : R (configuredChannel cfg c)
  uncounted {c : Channel} (h : R c) : R { c with stats := Vector.replicate 22 0 }
  afresh {c : Channel} (m : ChannelId) (h : R c) : R (Channel.initial m c.stats)

/-- Every channel has the property. -/
def State.AllChannels (s : State) (R : Channel → Prop) : Prop := ∀ m, R (s.channel m)

section
variable {R : Channel → Prop} {s t : State}

theorem State.AllChannels.of_channels (h : s.AllChannels R) (same : t.channels = s.channels) : t.AllChannels R :=
  fun m => by
    rw [channel_eq_of_channels same]
    exact h m

theorem State.AllChannels.putChannel (h : s.AllChannels R) {m : ChannelId} {c : Channel} (own : R c) :
    (s.putChannel m c).AllChannels R := fun j => by
  by_cases e : j = m
  · rw [e, State.channel_putChannel_self]
    exact own
  · rw [State.channel_putChannel_ne _ _ e]
    exact h j

theorem State.AllChannels.modStrand (h : s.AllChannels R) (n : StrandId) (f : Strand → Strand) :
    (s.modStrand n f).AllChannels R := h.of_channels rfl

theorem State.AllChannels.raiseStrand (h : s.AllChannels R) (n : StrandId) (c : StrandCounter) (k : Nat) :
    (s.raiseStrand n c k).AllChannels R := h.of_channels rfl

theorem State.AllChannels.offer (h : s.AllChannels R) (k : NoticeKind) (body : List Byte) :
    (s.offer k body).AllChannels R := h.of_channels (s.offer_channels k body)

theorem State.openBillet_channels (s : State) (n : StrandId) (head : Nat) (first : Bool) :
    (s.openBillet n head first).channels = s.channels := rfl

theorem State.pushReport_channels (s : State) (rep : BilletReport) : (s.pushReport rep).channels = s.channels := by
  unfold State.pushReport State.addReport State.billetReady State.discardOldest
  split
  · exact State.offer_channels ..
  · rw [State.offer_channels]
    dsimp only
    split
    · rfl
    · exact State.offer_channels ..

theorem State.countClose_channels (s : State) (n : StrandId) (g : Grade) (closing : List DefectRecord) :
    (s.countClose n g closing).channels = s.channels :=
  foldl_keeps (P := fun u : State => u.channels = s.channels) (closing.filter isLongitudinal) _ rfl fun _ _ _ hu => hu

theorem State.applyEntry_channels (s : State) (n : StrandId) (line : Nat) (before : Option Recipe) (e : ScheduleEntry) :
    (s.applyEntry n line before e).channels = s.channels := by
  unfold State.applyEntry
  dsimp only
  split
  · exact State.offer_channels ..
  all_goals exact State.offer_channels ..

theorem State.applySchedule_channels (s : State) (n : StrandId) (line : Nat) :
    (s.applySchedule n line).channels = s.channels :=
  foldl_keeps (P := fun u : State => u.channels = s.channels) _ _ rfl fun u _ _ hu =>
    (State.applyEntry_channels u ..).trans hu

theorem State.storeDone_channels (s : State) (op slot : Nat) (result : ResultCode) (state revision : Nat) :
    (s.storeDone op slot result state revision).channels = s.channels := State.offer_channels ..

theorem State.slotDone_channels (s : State) (op : Nat) (i : SlotId) (result : ResultCode) :
    (s.slotDone op i result).channels = s.channels := State.offer_channels ..

theorem State.channelToIdle_channel (s : State) (m : ChannelId) :
    (s.channelToIdle m).channels = (s.putChannel m { s.channel m with lp := LineProcessor.initial .idle }).channels := by
  unfold State.channelToIdle
  dsimp only
  split
  iterate 2 exact State.offer_channels ..
  all_goals rfl

section
variable (inv : ChannelInvariant R)
include inv

theorem State.AllChannels.line (h : s.AllChannels R) {m : ChannelId} (steps : LineSteps m s t) : t.AllChannels R := by
  have own : ∀ {c d : Channel}, ChannelSteps c d → R c → R d := by
    intro c d steps hc
    induction steps with
    | refl => exact hc
    | tail _ step ih => exact inv.step step ih
  intro j
  by_cases e : j = m
  · subst e
    exact own steps.channelSteps (h j)
  · rw [steps.channel_ne e]
    exact h j

theorem State.AllChannels.lines (h : s.AllChannels R) (ms : List ChannelId) {f : State → ChannelId → State}
    (steps : ∀ u m, LineSteps m u (f u m)) : (ms.foldl f s).AllChannels R :=
  foldl_keeps (P := fun u : State => u.AllChannels R) ms s h fun u m _ hu => hu.line inv (steps u m)

theorem State.AllChannels.eachChannel (h : s.AllChannels R) (n : StrandId) {f : ChannelId → State → State}
    (steps : ∀ u m, LineSteps m u (f m u)) : (s.eachChannel n f).AllChannels R :=
  State.AllChannels.lines inv (s := s.drawn) (h.of_channels rfl) _ fun u m => steps u m

/-- All the channels of a list enter IDLE, their slots FREE. -/
theorem State.AllChannels.toIdle (h : s.AllChannels R) (n : StrandId)
    (empty : ∀ m ∈ s.channelsOf n, (s.channel m).tt.Empty) : (s.eachChannel n State.channelToIdle).AllChannels R := by
  have kept := foldl_keeps (P := fun u : State => u.AllChannels R ∧ ∀ m ∈ s.openOrder n, (u.channel m).tt.Empty)
    (f := fun u m => u.channelToIdle m) (s.openOrder n) s.drawn
    ⟨h.of_channels rfl, fun m mem => empty m ((s.openOrder_perm n).mem_iff.1 mem)⟩ ?_
  · exact kept.1
  · rintro u m mem ⟨hu, hempty⟩
    have after := u.channelToIdle_channel m
    refine ⟨(hu.putChannel (inv.toIdle (hempty m mem) (hu m))).of_channels after, fun j hj => ?_⟩
    rw [channel_eq_of_channels after, State.channel_putChannel]
    split
    · exact hempty m mem
    · exact hempty j hj

theorem State.AllChannels.closeBillet (h : s.AllChannels R) (n : StrandId) (tail : Nat) (stopped : Bool)
    (closing : List DefectRecord) : (s.closeBillet n tail stopped closing).AllChannels R := by
  unfold State.closeBillet
  split
  · exact h
  · have taken := h.lines inv (s.channelsOf n) fun u m => .takeCoverage m u (s.strand n).cfg.countsPerLine tail
    exact taken.of_channels (by dsimp only; rw [State.pushReport_channels, State.countClose_channels]; rfl)

omit inv in
/-- A close of a billet leaves every table as it is. -/
theorem State.closeBillet_tt (s : State) (n : StrandId) (tail : Nat) (stopped : Bool) (closing : List DefectRecord)
    (m : ChannelId) : ((s.closeBillet n tail stopped closing).channel m).tt = (s.channel m).tt := by
  unfold State.closeBillet
  split
  · rfl
  · have pushed : ∀ (u : State) (rep : BilletReport) (g : Grade),
        ((u.countClose n g closing).pushReport rep).channel m = u.channel m := fun u rep g =>
      channel_eq_of_channels (by rw [State.pushReport_channels, State.countClose_channels]) m
    dsimp only
    rw [pushed]
    refine foldl_keeps (P := fun u : State => (u.channel m).tt = (s.channel m).tt) _ s rfl fun u j _ hu => ?_
    rw [← hu, State.takeCoverage, State.modLp_eq, State.channel_putChannel]
    split
    · next e => rw [e]
    · rfl

omit inv in
/-- After the flush of every channel of the strand their slots are FREE, and stay so to the end of the close. -/
theorem State.flushed_empty (s : State) (n : StrandId) (m : ChannelId) (mem : m ∈ s.channelsOf n) :
    ((s.eachChannel n fun m t => t.flush m).channel m).tt.Empty := by
  refine foldl_establishes (Q := fun m (u : State) => (u.channel m).tt.Empty) (f := fun u m => u.flush m) _ _
    (fun u a => ?_) (fun u a b hb => ?_) m ((s.openOrder_perm n).mem_iff.2 mem)
  · rw [State.flush_channel]
    exact freeTable_empty _
  · by_cases e : b = a
    · subst e
      rw [State.flush_channel]
      exact freeTable_empty _
    · rwa [(LineSteps.flush a u).channel_ne e]

omit inv in
theorem StrandKept.mem_channelsOf {n : StrandId} (kept : StrandKept n s t) (j : StrandId) (m : ChannelId) :
    m ∈ t.channelsOf j ↔ m ∈ s.channelsOf j := by
  rw [State.mem_channelsOf, State.mem_channelsOf, kept.cfg_eq m]

theorem State.AllChannels.stopStrand (h : s.AllChannels R) (n : StrandId) (reason : StrandReason) :
    (s.stopStrand n reason).AllChannels R := by
  have abandoned := h.lines inv (s.channelsOf n) fun u m => LineSteps.abandon m u
  have flushed := abandoned.eachChannel inv n fun u m => LineSteps.flush m u
  unfold State.stopStrand
  refine State.AllChannels.offer (State.AllChannels.modStrand ?_ n _) _ _
  refine (flushed.closeBillet inv n _ true _).toIdle inv n fun m mem => ?_
  rw [(StrandKept.closeBillet n _ _ true _).mem_channelsOf, (StrandKept.eachChannel _ _ fun u m => .flush m u).mem_channelsOf]
    at mem
  intro i
  rw [State.closeBillet_tt]
  exact State.flushed_empty _ n m mem i

theorem State.AllChannels.closeAtCut (h : s.AllChannels R) (n : StrandId) (k : Nat) :
    (s.closeAtCut n k).AllChannels R := by
  have taken : (s.takeCut n k).AllChannels R := h.of_channels rfl
  have parted := taken.lines inv ((s.takeCut n k).channelsOf n) fun u m => LineSteps.splitTracks m u k
  unfold State.closeAtCut
  exact ((parted.modStrand n _).closeBillet inv n k false _).modStrand n _

theorem State.AllChannels.endFinishing (h : s.AllChannels R) (n : StrandId) : (s.endFinishing n).AllChannels R := by
  have discarded : (s.discardTail n).AllChannels R := h.of_channels rfl
  have freed := discarded.lines inv ((s.discardTail n).channelsOf n) fun u m =>
    (LineSteps.abandon m u).trans (.freeTracks m _)
  unfold State.endFinishing
  refine State.AllChannels.offer (State.AllChannels.modStrand ?_ n _) _ _
  refine freed.toIdle inv n fun m mem => ?_
  rw [(StrandKept.channels (n := n) _ (s.discardTail n) fun u m =>
    (LineKept.abandon m u).trans (.modTt m _ freeTable)).mem_channelsOf] at mem
  refine foldl_establishes (Q := fun m (u : State) => (u.channel m).tt.Empty)
    (f := fun u m => (u.abandon m).modTt m freeTable) _ _ (fun u a => ?_) (fun u a b hb => ?_) m mem
  · rw [State.modTt_eq, State.channel_putChannel_self]
    exact freeTable_empty _
  · by_cases e : b = a
    · subst e
      rw [State.modTt_eq, State.channel_putChannel_self]
      exact freeTable_empty _
    · rwa [((LineSteps.abandon a u).trans (.freeTracks a _)).channel_ne e]

theorem State.AllChannels.cut (h : s.AllChannels R) (n : StrandId) : (s.cut n).AllChannels R := by
  unfold State.cut
  split
  iterate 3 exact h.raiseStrand n _ _
  have closed := h.closeAtCut inv n (cutCoord (s.strand n))
  unfold State.acceptCut
  dsimp only
  split
  · exact closed.endFinishing inv n
  all_goals exact closed.of_channels rfl

theorem State.AllChannels.lineTrigger (h : s.AllChannels R) (n : StrandId) : (s.lineTrigger n).AllChannels R := by
  unfold State.lineTrigger
  refine State.AllChannels.eachChannel inv ?_ n fun u m => LineSteps.takeTrigger m u _ _ _
  exact ((h.modStrand n triggeredStrand).raiseStrand n .triggers 1).of_channels (State.applySchedule_channels ..)

theorem State.AllChannels.forwardCount (h : s.AllChannels R) (n : StrandId) : (s.forwardCount n).AllChannels R := by
  unfold State.forwardCount
  dsimp only
  split
  · exact h.stopStrand inv n _
  split
  · unfold State.highRaised
    dsimp only
    split
    · exact ((h.modStrand n _).modStrand n _).lineTrigger inv n
    · exact h.of_channels rfl
  · exact h.modStrand n _

theorem State.AllChannels.encoderCount (h : s.AllChannels R) (n : StrandId) (input : EncInput) :
    (s.encoderCount n input).AllChannels R := by
  unfold State.encoderCount
  dsimp only
  split
  · exact h.modStrand n _
  all_goals
    split
    · exact (h.modStrand n _).forwardCount inv n
    · unfold State.reverseCount
      split
      · exact h.of_channels rfl
      · exact h.of_channels rfl

/-! ### Every command -/

theorem State.AllChannels.startStrand (h : s.AllChannels R) (n : StrandId) (e : HistoryEntry) :
    (s.startStrand n e).AllChannels R := by
  rw [State.startStrand_eq]
  refine State.AllChannels.offer ?_ _ _
  refine State.AllChannels.of_channels (s := { s with channels := _ }) (fun m => ?_) (State.openBillet_channels ..)
  simp only [State.channel, Fin.getElem_fin, Vector.getElem_ofFn]
  by_cases own : (s.channel m).cfg.strand = n
  · exact iteInduction (fun _ => inv.started (h m)) fun other => absurd own other
  · exact iteInduction (fun same => absurd same own) fun _ => h m

theorem State.AllChannels.blocksInitial (h : s.AllChannels R) : s.blocksInitial.AllChannels R := fun m => by
  simp only [State.channel, State.blocksInitial, Fin.getElem_fin, Vector.getElem_ofFn]
  exact inv.afresh m (h m)

theorem State.AllChannels.clearCounts (h : s.AllChannels R) (cause : RestartCause) :
    (s.clearCounts cause).AllChannels R := by
  unfold State.clearCounts
  split
  · intro m
    simp only [State.channel, Fin.getElem_fin, Vector.getElem_ofFn]
    exact inv.uncounted (h m)
  · exact h

theorem Acts.allChannels {c : Instr} (acts : Acts c s t) (h : s.AllChannels R) : t.AllChannels R := by
  cases acts with
  | count n input => exact h.encoderCount inv n input
  | stroke n =>
    unfold State.mouldStroke
    dsimp only
    split <;> exact h.of_channels rfl
  | cutEdge n => exact (h.modStrand n _).cut inv n
  | cutRequest n => exact h.cut inv n
  | receives m x => exact h.line inv (.channel (.receiver _ id))
  | frame m f => exact h.line inv ((LineSteps.hunt m s).trans (.classify m _ f))
  | frameFails m f => exact h.line inv ((LineSteps.hunt m s).trans (.framingFailure m _))
  | gap m inHeader => exact h.line inv ((LineSteps.hunt m s).trans (.framingFailure m _))
  | waitExpires m k => exact h.line inv (.settleMissed m s)
  | hostFrame f crc =>
    unfold State.acceptFrame
    split <;> exact h.of_channels rfl
  | frameAbandoned c rx =>
    unfold State.abandonFrame
    split <;> exact h.of_channels rfl
  | clearChannelStats m => exact h.putChannel (inv.uncounted (h m))
  | configureChannel m cfg => exact h.putChannel (inv.configured cfg (h m))
  | start n i revision r => exact h.startStrand inv n _
  | finish n => exact (h.modStrand n _).offer _ _
  | stop n => exact h.stopStrand inv n _
  | release m _ locked => exact h.line inv (.releaseChannel m s locked)
  | stored i r verified => exact h.of_channels (by rw [State.slotDone_channels, State.setOp_channels]; rfl)
  | frozen i verified => exact h.of_channels (by rw [State.slotDone_channels, State.setOp_channels]; rfl)
  | beginClear => exact h.of_channels (by rw [State.setOp_channels, State.modSlots_channels])
  | cleared =>
    exact h.of_channels (by rw [State.storeDone_channels, State.setOp_channels, State.modSlots_channels])
  | hold c f cause => exact (State.AllChannels.blocksInitial inv (s := s.modSup f) (h.of_channels rfl)).clearCounts inv cause
  | released pins => exact (h.clearCounts inv _).of_channels rfl
  | _ => exact h.of_channels rfl

/-- What the channels keep, every command keeps. -/
theorem exec_allChannels {c : Instr} (next : exec c s = .next t) (h : s.AllChannels R) : t.AllChannels R := by
  cases exec_does c s t next with
  | event acts => exact acts.allChannels inv h
  | idles => exact h
  | request _ acts => exact (acts.allChannels inv (h.of_channels rfl)).of_channels rfl

end

end

end Sys2Proof.Machine

/-! What the channels keep under every command (03 to 06): the coverage log within its capacity, the counters of wide
runs, the baselines in range, the tracks sound, and baselines and slots as the channel state says. -/

namespace Sys2Proof.Machine

/-! ### The coverage log (R90, R91) -/

theorem extendNewest_length {cls : Coverage} {log longer : List Segment} (h : extendNewest cls log = some longer) :
    longer.length = log.length := by
  fun_induction extendNewest cls log generalizing longer with
  | case1 => exact nomatch h
  | case2 seg same =>
    obtain rfl := Option.some.inj h
    rfl
  | case3 => exact nomatch h
  | case4 seg next rest ih =>
    obtain ⟨tail, found, rfl⟩ := Option.map_eq_some_iff.1 h
    simpa using ih found

theorem mergeOldestSegments_length (log : List Segment) (two : 2 ≤ log.length) :
    (mergeOldestSegments log).length + 1 = log.length := by
  match log, two with
  | _ :: _ :: _, _ => rfl

theorem enterCoverage_length_le (line : Nat) (cls : Coverage) {log : List Segment} (fits : log.length ≤ 64) :
    (enterCoverage line cls log).length ≤ 64 := by
  unfold enterCoverage
  split
  · next longer =>
      rw [extendNewest_length longer]
      exact fits
  · rw [List.length_append, List.length_singleton]
    split
    · next full =>
        have : 64 ≤ log.length := full
        have := mergeOldestSegments_length log (by omega)
        omega
    · next free =>
        have : ¬64 ≤ log.length := free
        omega

theorem coverageAbove_length_le (pitch k : Nat) (log : List Segment) :
    (coverageAbove pitch k log).length ≤ log.length :=
  (List.length_filter_le _ _).trans (List.length_map _).le

/-- The coverage log holds at most 64 segments (R90). -/
def Channel.LogFits (c : Channel) : Prop := c.lp.log.length ≤ 64

theorem Channel.LogFits.step {c d : Channel} (step : ChannelStep c d) (h : c.LogFits) : d.LogFits := by
  cases step with
  | logged lost clear line cls =>
    refine enterCoverage_length_le line cls ?_
    rw [(filterAfter_kept lost clear c.lp).2.2.2]
    exact h
  | covered pitch tail => exact (coverageAbove_length_le pitch tail _).trans h
  | _ => simpa only [Channel.LogFits, warmupLp, activeLp, hardLockedLp, restartedLp, releasedLp] using h

theorem logFits_invariant : ChannelInvariant Channel.LogFits where
  step := Channel.LogFits.step
  toIdle _ _ := Nat.zero_le 64
  started _ := Nat.zero_le 64
  configured _ _ := Nat.zero_le 64
  uncounted h := h
  afresh _ _ := Nat.zero_le 64

/-! ### Wide runs (R68, R69, R74) -/

/-- Wide runs is the sum of MARK and TRANSVERSE, modulo 2^32 (R74). -/
def Channel.WideRunsCounted (c : Channel) : Prop :=
  c.stats[channelIndex .wideRuns] = c.stats[channelIndex .mark] + c.stats[channelIndex .transverse]

theorem Channel.WideRunsCounted.step {c d : Channel} (step : ChannelStep c d) (h : c.WideRunsCounted) :
    d.WideRunsCounted := by
  cases step with
  | counts stats by' raised wide =>
    have h : c.stats[channelIndex .wideRuns] = c.stats[channelIndex .mark] + c.stats[channelIndex .transverse] := h
    show stats[channelIndex .wideRuns] = stats[channelIndex .mark] + stats[channelIndex .transverse]
    rw [raised, raised, raised, wide, h]
    ac_rfl
  | _ =>
    unfold Channel.WideRunsCounted at h ⊢
    exact h

theorem wideRunsCounted_invariant : ChannelInvariant Channel.WideRunsCounted where
  step := Channel.WideRunsCounted.step
  toIdle _ h := h
  started h := h
  configured _ h := h
  uncounted _ := rfl
  afresh _ h := h

/-! ### Baselines (R37, R42, R45) -/

/-- A baseline lies within 0..65,520, and is 0 while unseeded. -/
def Column.InRange (col : Column) : Prop := col.baseline ≤ 65520 ∧ (col.seeded = false → col.baseline = 0)

/-- A step goes no farther than the sample, so it stays below any bound on both. -/
theorem stepBaseline_le {baseline x bound : Nat} (shift : Nat) (below : baseline ≤ bound) (small : 16 * x ≤ bound) :
    stepBaseline baseline x shift ≤ bound := by
  have toward : (16 * (x : Int) - baseline).tdiv ((2 ^ shift : Nat) : Int) ≤ max (16 * (x : Int) - baseline) 0 := by
    rcases Int.le_total 0 (16 * (x : Int) - baseline) with up | down
    · exact (Int.tdiv_le_self _ up).trans (le_max_left _ _)
    · refine le_trans ?_ (le_max_right _ _)
      rw [← neg_neg (16 * (x : Int) - baseline), Int.neg_tdiv, Int.neg_nonpos_iff]
      exact Int.tdiv_nonneg (by omega) (Int.natCast_nonneg _)
  unfold stepBaseline
  omega

theorem sampleAt_small {samples : List Sample} (small : ∀ x ∈ samples, x.value < 4096) (c : Nat) :
    (sampleAt samples c).value < 4096 := by
  unfold sampleAt
  rw [List.getD_eq_getElem?_getD]
  cases found : samples[c]? with
  | none => decide
  | some x => exact small x (List.mem_of_getElem? found)

theorem columnAfter_inRange (r : Recipe) (groups : Nat) (active : Bool) {samples : List Sample}
    (small : ∀ x ∈ samples, x.value < 4096) (c : Nat) {col : Column} (h : col.InRange) :
    (columnAfter r groups active samples c col).InRange := by
  have sample := sampleAt_small small c
  unfold columnAfter
  dsimp only
  split
  · split
    · next seeded => exact ⟨stepBaseline_le _ h.1 (by omega), fun un => absurd seeded (by simp [show col.seeded = false from un])⟩
    · exact ⟨show 16 * (sampleAt samples c).value ≤ 65520 by omega, nofun⟩
  · exact h

/-- Every column of the channel is in range. -/
def Channel.BaselinesInRange (c : Channel) : Prop := ∀ k : Fin 256, c.lp.columns[k].InRange

theorem unseeded_get (k : Fin 256) : unseeded[k] = ⟨0, false⟩ := by
  simp [unseeded]

theorem unseeded_inRange (k : Fin 256) : unseeded[k].InRange := by
  rw [unseeded_get]
  exact ⟨Nat.zero_le _, fun _ => rfl⟩

theorem columnsAfter_inRange (r : Recipe) (groups : Nat) (active : Bool) {samples : List Sample}
    (small : ∀ x ∈ samples, x.value < 4096) {columns : Vector Column 256} (h : ∀ k : Fin 256, columns[k].InRange)
    (k : Fin 256) : (columnsAfter r groups active samples columns)[k].InRange := by
  simp only [columnsAfter, Fin.getElem_fin, Vector.getElem_ofFn]
  exact columnAfter_inRange r groups active small k (h k)

theorem Channel.BaselinesInRange.step {c d : Channel} (step : ChannelStep c d) (h : c.BaselinesInRange) :
    d.BaselinesInRange := by
  cases step with
  | logged lost clear line cls =>
    intro k
    rw [show (Channel.lp _).columns = c.lp.columns from (filterAfter_kept lost clear c.lp).2.1]
    exact h k
  | warmed r samples small => exact columnsAfter_inRange r _ false small h
  | processed pitch line r samples narrow spans small => exact columnsAfter_inRange r _ true small h
  | locked | restarted | released =>
    unfold Channel.BaselinesInRange
    dsimp only [hardLockedLp, restartedLp, releasedLp, LineProcessor.initial]
    exact unseeded_inRange
  | _ => simpa only [Channel.BaselinesInRange] using h

theorem baselinesInRange_invariant : ChannelInvariant Channel.BaselinesInRange where
  step := Channel.BaselinesInRange.step
  toIdle _ _ := unseeded_inRange
  started _ := unseeded_inRange
  configured _ _ := unseeded_inRange
  uncounted h := h
  afresh _ _ := unseeded_inRange

/-- Settles O6: samples have 12 bits, and a step never passes the sample. -/
theorem baselinesStayInRange : Obligations.BaselinesStayInRange := by
  unfold Obligations.BaselinesStayInRange
  intro c s t h next
  exact exec_allChannels baselinesInRange_invariant next h

/-! ### Tracks (R101 to R107, R114) -/

/-- Every track in the slots is sound. -/
def SlotsSound (slots : Vector (Option Track) 16) : Prop := ∀ i : SlotId, ∀ t, slots[i] = some t → t.Sound

/-- No slot holds a track. -/
def SlotsFree (slots : Vector (Option Track) 16) : Prop := ∀ i : SlotId, slots[i] = none

theorem slotsOf_get (f : SlotId → Option Track) (i : SlotId) : (slotsOf f)[i] = f i := by
  simp [slotsOf]

theorem SlotsFree.sound {slots : Vector (Option Track) 16} (free : SlotsFree slots) : SlotsSound slots :=
  fun i _ held => absurd ((free i).symm.trans held) nofun

theorem slotsFree_none : SlotsFree (Vector.replicate 16 none) := fun i => by simp

/-- Slot by slot, a change that keeps the tracks sound. -/
theorem SlotsSound.bind {slots : Vector (Option Track) 16} {f : Track → Option Track} (h : SlotsSound slots)
    (keeps : ∀ t t', t.Sound → f t = some t' → t'.Sound) : SlotsSound (slotsOf fun i => (slots[i]).bind f) := by
  intro i t held
  rw [slotsOf_get] at held
  obtain ⟨before, was, became⟩ := Option.bind_eq_some_iff.1 held
  exact keeps before t (h i before was) became

theorem SlotsFree.bind {slots : Vector (Option Track) 16} (free : SlotsFree slots) (f : Track → Option Track) :
    SlotsFree (slotsOf fun i => (slots[i]).bind f) := fun i => by
  rw [slotsOf_get, free i]
  rfl

theorem SlotsSound.expire {slots : Vector (Option Track) 16} (h : SlotsSound slots) (pitch line : Nat) :
    SlotsSound (expireSlots pitch line slots) :=
  h.bind fun _ _ sound kept => by
    unfold expireTrack at kept
    split at kept
    · exact nomatch kept
    · obtain rfl := Option.some.inj kept
      exact sound

theorem openTrack_sound (line : Nat) {run : Run} (ordered : run.first ≤ run.last) : (openTrack line run).Sound := by
  refine ⟨?_, ?_, Nat.le_refl 1, show 1 ≤ 65535 by decide, Nat.zero_le _, fun _ => ⟨Nat.zero_le _, rfl⟩, nofun, nofun⟩
  · show run.first ≤ (run.first + run.last) / 2
    omega
  · show (run.first + run.last) / 2 ≤ run.last
    omega

theorem tentative_of_stateAfterHit {confirmLines hits : Nat} {t : Track}
    (still : stateAfterHit confirmLines t hits = .tentative) : t.state = .tentative := by
  unfold stateAfterHit at still
  split at still
  · assumption
  · exact nomatch still
  · exact nomatch still

theorem stateAfterHit_ne_coasting (confirmLines hits : Nat) (t : Track) :
    stateAfterHit confirmLines t hits ≠ .coasting := by
  unfold stateAfterHit
  split
  · split <;> nofun
  · nofun
  · nofun

theorem hitTrack_sound (line confirmLines : Nat) {run : Run} (ordered : run.first ≤ run.last) {t : Track}
    (h : t.Sound) : (hitTrack line confirmLines run t).Sound := by
  obtain ⟨-, -, one, many, -, tentative, -, -⟩ := h
  have centred : run.first ≤ run.centre ∧ run.centre ≤ run.last := by
    unfold Run.centre
    omega
  have hits : 1 ≤ (if decide (t.hitLines < 65535) then t.hitLines + 1 else t.hitLines) ∧
      (if decide (t.hitLines < 65535) then t.hitLines + 1 else t.hitLines) ≤ 65535 := by
    simp only [decide_eq_true_eq]
    split <;> omega
  exact ⟨(Nat.min_le_right _ _).trans centred.1, centred.2.trans (Nat.le_max_right _ _), hits.1, hits.2,
    Nat.min_le_left _ _, fun still => ⟨Nat.zero_le _, (tentative (tentative_of_stateAfterHit still)).2⟩, fun _ => rfl,
    fun coasting => absurd coasting (stateAfterHit_ne_coasting _ _ t)⟩

theorem missTrack_sound (gapMax : Nat) {t t' : Track} (h : t.Sound) (left : (missTrack gapMax t).track = some t') :
    t'.Sound := by
  obtain ⟨low, high, one, many, gaps, tentative, -, -⟩ := h
  unfold missTrack at left
  dsimp only at left
  split at left
  · next young =>
      split at left
      · exact nomatch left
      · next first =>
          obtain rfl := Option.some.inj left
          exact ⟨low, high, one, many, gaps, fun _ => ⟨show t.missRun + 1 ≤ 1 by omega, (tentative young).2⟩,
            fun confirmed => absurd (young.symm.trans confirmed) nofun,
            fun coasting => absurd (young.symm.trans coasting) nofun⟩
  all_goals
    split at left
    · exact nomatch left
    · obtain rfl := Option.some.inj left
      exact ⟨low, high, one, many, gaps, nofun, nofun, fun _ => Nat.le_add_left 1 _⟩

/-- What is being associated is sound: the tracks, and the ends of the runs in order. -/
def Work.Sound (w : Work) : Prop :=
  (∀ t, w.track = some t → t.Sound) ∧ ∀ run, w.run = some run → run.first ≤ run.last

theorem placeRun_sound (gate line : Nat) {p : FirstPass} {run : Run} (ordered : run.first ≤ run.last)
    (h : ∀ i : SlotId, p.work[i].Sound) (i : SlotId) : ((placeRun gate line p run).work[i]).Sound := by
  have changed : ∀ (j : SlotId) (w : Work), w.Sound → (p.work.set j w)[i].Sound := by
    intro j w sound
    simp only [Fin.getElem_fin, Vector.getElem_set]
    split
    · exact sound
    · exact h i
  unfold placeRun
  split
  · next j _ _ => exact changed j _ ⟨(h j).1, fun run' same => Option.some.inj same ▸ ordered⟩
  · split
    · next j _ =>
        exact changed j _ ⟨fun t same => Option.some.inj same ▸ openTrack_sound line ordered, nofun⟩
    · exact h i

theorem firstPass_sound (gate line : Nat) {slots : Vector (Option Track) 16} (h : SlotsSound slots)
    {narrow : List Run} (ordered : ∀ run ∈ narrow, run.first ≤ run.last) :
    ∀ i : SlotId, ((firstPass gate line slots narrow).work[i]).Sound := by
  refine foldl_keeps (P := fun p : FirstPass => ∀ i : SlotId, p.work[i].Sound) narrow _ (fun i => ?_)
    fun p run mem hp => placeRun_sound gate line (ordered run mem) hp
  simp only [Fin.getElem_fin, Vector.getElem_ofFn]
  exact ⟨h i, nofun⟩

theorem secondPass_sound (line : Nat) (r : Recipe) (spans : List Run) {w : Work} (h : w.Sound) {t : Track}
    (left : (secondPass line r spans w).track = some t) : t.Sound := by
  unfold secondPass at left
  split at left
  · exact nomatch left
  · next before was =>
      split at left
      · obtain rfl := Option.some.inj left
        exact h.1 _ was
      split at left
      · next run found =>
          obtain rfl := Option.some.inj left
          exact hitTrack_sound line _ (h.2 run found) (h.1 _ was)
      split at left
      · obtain rfl := Option.some.inj left
        exact h.1 _ was
      · exact missTrack_sound _ (h.1 _ was) left

theorem associate_sound (pitch line : Nat) (r : Recipe) {narrow : List Run}
    (ordered : ∀ run ∈ narrow, run.first ≤ run.last) (spans : List Run) {tt : TrackTable} (h : SlotsSound tt.slots) :
    SlotsSound (associate pitch line r narrow spans tt).table.slots := by
  intro i t held
  have held : (slotsOf _)[i] = some t := held
  rw [slotsOf_get] at held
  exact secondPass_sound line r spans (firstPass_sound _ _ (h.expire pitch line) ordered i) held

theorem SlotsSound.cut {slots : Vector (Option Track) 16} (h : SlotsSound slots) (pitch k : Nat) :
    SlotsSound (cutSlots pitch k slots) :=
  h.bind fun t t' sound kept => by
    have ⟨low, high, one, many, gaps, _, confirmed, coasting⟩ := sound
    unfold cutRemainder cutPiece at kept
    by_cases reached : t.state ≠ .tentative ∧ t.start < k
    · by_cases straddles : k < t.last + pitch
      · simp only [reached, straddles, ne_eq, not_false_eq_true, and_self, if_true, Option.some.injEq] at kept
        subst kept
        exact ⟨low, high, one, many, gaps, fun young => absurd young reached.1, confirmed, coasting⟩
      · simp [reached, straddles] at kept
    · simp only [reached, if_false, Option.some.injEq] at kept
      subst kept
      exact sound

theorem SlotsSound.expireForCut {tt : TrackTable} (h : SlotsSound tt.slots) (pitch : Nat) :
    SlotsSound (expireForCut pitch tt).slots := by
  unfold Machine.expireForCut
  split
  · exact h
  · exact h.expire pitch _

/-- Every track of the channel is sound. -/
def Channel.TracksSound (c : Channel) : Prop := SlotsSound c.tt.slots

theorem Channel.TracksSound.step {c d : Channel} (step : ChannelStep c d) (h : c.TracksSound) : d.TracksSound := by
  cases step with
  | processed pitch line r samples narrow spans small ordered => exact associate_sound pitch line r ordered spans h
  | held pitch line r => exact SlotsSound.expire h pitch line
  | freed => exact slotsFree_none.sound
  | released => exact slotsFree_none.sound
  | split pitch k => exact (SlotsSound.expireForCut h pitch).cut pitch k
  | _ => exact h

theorem tracksSound_invariant : ChannelInvariant Channel.TracksSound where
  step := Channel.TracksSound.step
  toIdle _ h := h
  started _ := slotsFree_none.sound
  configured _ _ := slotsFree_none.sound
  uncounted h := h
  afresh _ _ := slotsFree_none.sound

/-- Settles O10: hits, misses, openings and cuts each leave a track sound. -/
theorem tracksStaySound : Obligations.TracksStaySound := by
  unfold Obligations.TracksStaySound
  intro c s t h next
  exact exec_allChannels tracksSound_invariant next h

/-! ### Baselines and slots by the channel state (R22, R30, R37, R95) -/

/-- The timer runs exactly during an await; baselines are unseeded and slots FREE where the state says so. -/
def Channel.HoldsByState (c : Channel) : Prop :=
  (c.rx.await = .quiet ↔ c.rx.timer = none) ∧ (c.lp.state.dark = true → c.lp.Unseeded ∧ c.lp.warmCount = 0) ∧
    (c.lp.state.tracking = false → c.tt.Empty)

theorem LineProcessor.unseeded_initial (st : ChannelState) : (LineProcessor.initial st).Unseeded := unseeded_get

theorem SlotsFree.expireForCut {tt : TrackTable} (free : SlotsFree tt.slots) (pitch : Nat) :
    SlotsFree (expireForCut pitch tt).slots := by
  unfold Machine.expireForCut
  split
  · exact free
  · exact free.bind _

theorem Channel.HoldsByState.step {c d : Channel} (step : ChannelStep c d) (h : c.HoldsByState) : d.HoldsByState := by
  obtain ⟨timed, unlit, empty⟩ := h
  cases step with
  | receiver rx keeps => exact ⟨keeps timed, unlit, empty⟩
  | counts => exact ⟨timed, unlit, empty⟩
  | logged lost clear line cls =>
    obtain ⟨state, columns, warm, -⟩ := filterAfter_kept lost clear c.lp
    refine ⟨timed, fun isDark => ?_, fun still => empty (state ▸ still)⟩
    obtain ⟨un, zero⟩ := unlit (state ▸ isDark)
    exact ⟨fun k => (congrArg (·[k]) columns).trans (un k), warm.trans zero⟩
  | warmed r samples small warmup =>
    refine ⟨timed, fun isDark => ?_, fun _ => empty (by rw [warmup]; rfl)⟩
    have isDark : (if r.warmLines ≤ c.lp.warmCount + 1 then ChannelState.active else .warmup).dark = true := isDark
    split at isDark <;> exact nomatch isDark
  | processed pitch line r samples narrow spans small ordered active =>
    refine ⟨timed, fun isDark => ?_, fun still => ?_⟩
    · simp [activeLp, active, ChannelState.dark] at isDark
    · simp [activeLp, active, ChannelState.tracking] at still
  | held pitch line r => exact ⟨timed, unlit, fun still => SlotsFree.bind (empty still) _⟩
  | freed => exact ⟨timed, unlit, fun _ => slotsFree_none⟩
  | softened left from' =>
    refine ⟨timed, nofun, fun still => empty ?_⟩
    cases left with
    | warmup => rw [from']; rfl
    | active => exact nomatch still
  | cleared left soft =>
    refine ⟨timed, fun isDark => ?_, fun still => empty ?_⟩
    · cases left <;> exact nomatch isDark
    · cases left with
      | warmup => rw [soft]; rfl
      | active => exact nomatch still
  | locked cause handles free => exact ⟨timed, fun _ => ⟨unseeded_get, rfl⟩, fun _ => free⟩
  | restarted handles free => exact ⟨timed, nofun, fun _ => free⟩
  | released => exact ⟨timed, nofun, fun _ => slotsFree_none⟩
  | covered => exact ⟨timed, unlit, empty⟩
  | split pitch k => exact ⟨timed, unlit, fun still => (SlotsFree.expireForCut (empty still) pitch).bind _⟩

theorem holdsByState_invariant : ChannelInvariant Channel.HoldsByState where
  step := Channel.HoldsByState.step
  toIdle free h := ⟨h.1, fun _ => ⟨LineProcessor.unseeded_initial _, rfl⟩, fun _ => free⟩
  started _ := ⟨⟨fun _ => rfl, fun _ => rfl⟩, fun _ => ⟨LineProcessor.unseeded_initial _, rfl⟩, fun _ => slotsFree_none⟩
  configured _ _ :=
    ⟨⟨fun _ => rfl, fun _ => rfl⟩, fun _ => ⟨LineProcessor.unseeded_initial _, rfl⟩, fun _ => slotsFree_none⟩
  uncounted h := h
  afresh _ _ :=
    ⟨⟨fun _ => rfl, fun _ => rfl⟩, fun _ => ⟨LineProcessor.unseeded_initial _, rfl⟩, fun _ => slotsFree_none⟩

end Sys2Proof.Machine

/-! What the closing of a billet, a stop and a cut do to their strand (01, 06, 07). -/

namespace Sys2Proof.Machine

/-! ### The close counters (R139) -/

/-- What the close of a billet adds to a counter of the strand (R139). -/
def closeCount (g : Grade) (closing : List DefectRecord) (c : StrandCounter) : Counter :=
  (if c = .billetsClosed then 1 else 0) + (if c = gradeCounter g then 1 else 0) +
    BitVec.ofNat 32
      ((closing.filter isLongitudinal).filter fun r => decide (c = binCounter (binOf r.lengthMm))).length

theorem State.strandCount_countBins (s : State) (n : StrandId) (closing : List DefectRecord) (c : StrandCounter) :
    (s.countBins n closing).strandCount n c =
      s.strandCount n c +
        BitVec.ofNat 32
          ((closing.filter isLongitudinal).filter fun r => decide (c = binCounter (binOf r.lengthMm))).length := by
  unfold State.countBins
  generalize closing.filter isLongitudinal = long
  induction long generalizing s with
  | nil => simp
  | cons r long ih =>
    rw [List.foldl_cons, ih, State.strandCount_raiseStrand, List.filter_cons]
    by_cases own : c = binCounter (binOf r.lengthMm)
    · simp [own, BitVec.ofNat_add]
      ac_rfl
    · simp [own]

theorem State.strandCount_countClose (s : State) (n : StrandId) (g : Grade) (closing : List DefectRecord)
    (c : StrandCounter) :
    (s.countClose n g closing).strandCount n c = s.strandCount n c + closeCount g closing c := by
  unfold State.countClose closeCount
  rw [State.strandCount_countBins, State.strandCount_raiseStrand, State.strandCount_raiseStrand]
  simp only [BitVec.ofNat_eq_ofNat]
  ac_rfl

/-- Raising counters of strand n changes nothing but them. -/
theorem State.countClose_eq (s : State) (n : StrandId) (g : Grade) (closing : List DefectRecord) :
    s.countClose n g closing =
      s.putStrand n { s.strand n with stats := ((s.countClose n g closing).strand n).stats } := by
  refine foldl_keeps (P := fun u : State => u = s.putStrand n { s.strand n with stats := (u.strand n).stats }) _ _ ?_
    fun u r _ hu => ?_
  · simp [State.raiseStrand_eq]
  · rw [hu]
    simp [State.raiseStrand_eq]

/-- Billets closed less the four grade counters, modulo 2^32. -/
def closeBalance (stats : Vector Counter 20) : Counter :=
  stats[strandIndex .billetsClosed] -
    (stats[strandIndex .accept] + stats[strandIndex .condition] + stats[strandIndex .unverified] +
      stats[strandIndex .reject])

theorem closeBalance_eq_zero_iff (s : State) (n : StrandId) :
    closeBalance (s.strand n).stats = 0 ↔
      s.strandCount n .billetsClosed =
        s.strandCount n .accept + s.strandCount n .condition + s.strandCount n .unverified + s.strandCount n .reject :=
  sub_eq_zero

theorem closeBalance_of_counts {x y : Vector Counter 20} (by' : StrandCounter → Counter)
    (raised : ∀ c, y[strandIndex c] = x[strandIndex c] + by' c)
    (even : by' .billetsClosed = by' .accept + by' .condition + by' .unverified + by' .reject) :
    closeBalance y = closeBalance x := by
  unfold closeBalance
  rw [raised, raised, raised, raised, raised, even]
  ring

/-- A counter that is no length bin's rises only by its own share of a close. -/
theorem closeCount_of_no_bin {c : StrandCounter} (no : ∀ i, c ≠ binCounter i) (g : Grade) (closing : List DefectRecord) :
    closeCount g closing c = (if c = .billetsClosed then 1 else 0) + if c = gradeCounter g then 1 else 0 := by
  simp [closeCount, no]

theorem closeCount_even (g : Grade) (closing : List DefectRecord) :
    closeCount g closing .billetsClosed =
      closeCount g closing .accept + closeCount g closing .condition + closeCount g closing .unverified +
        closeCount g closing .reject := by
  have closes : ∀ i, StrandCounter.billetsClosed ≠ binCounter i := by decide
  have accept : ∀ i, StrandCounter.accept ≠ binCounter i := by decide
  have condition : ∀ i, StrandCounter.condition ≠ binCounter i := by decide
  have unverified : ∀ i, StrandCounter.unverified ≠ binCounter i := by decide
  have reject : ∀ i, StrandCounter.reject ≠ binCounter i := by decide
  rw [closeCount_of_no_bin closes, closeCount_of_no_bin accept, closeCount_of_no_bin condition,
    closeCount_of_no_bin unverified, closeCount_of_no_bin reject]
  cases g <;> decide

/-! ### Closing a billet (R127, R132) -/

theorem State.pushReport_strands (s : State) (rep : BilletReport) : (s.pushReport rep).strands = s.strands := by
  unfold State.pushReport State.addReport State.billetReady State.discardOldest
  split
  · exact State.offer_strands ..
  · rw [State.offer_strands]
    dsimp only
    split
    · rfl
    · exact State.offer_strands ..

theorem foldl_takeCoverage_strands (s : State) (pitch tail : Nat) (ms : List ChannelId) :
    (ms.foldl (fun t m => t.takeCoverage pitch tail m) s).strands = s.strands :=
  foldl_keeps (P := fun u : State => u.strands = s.strands) ms s rfl fun _ _ _ hu => hu

section
variable (s : State) (n : StrandId) (tail : Nat) (stopped : Bool) (closing : List DefectRecord)

/-- The close takes the billet away and raises counters of its strand. -/
theorem State.closeBillet_strand :
    (s.closeBillet n tail stopped closing).strand n =
      { s.strand n with billet := none, stats := ((s.closeBillet n tail stopped closing).strand n).stats } := by
  unfold State.closeBillet
  split
  · next none => rw [← none]
  · dsimp only
    rw [strand_eq_of_strands (State.pushReport_strands ..), State.countClose_eq, State.strand_putStrand_self,
      State.modStrand_eq, State.strand_putStrand_self, strand_eq_of_strands (foldl_takeCoverage_strands ..)]

theorem State.closeBillet_count {b : OpenBillet} (opened : (s.strand n).billet = some b) (c : StrandCounter) :
    (s.closeBillet n tail stopped closing).strandCount n c =
      s.strandCount n c + closeCount (s.reportOf n b tail stopped closing).grade closing c := by
  unfold State.closeBillet
  rw [opened]
  dsimp only
  unfold State.strandCount
  rw [strand_eq_of_strands (State.pushReport_strands ..)]
  have counted := State.strandCount_countClose
    (((s.channelsOf n).foldl (fun t m => t.takeCoverage (s.strand n).cfg.countsPerLine tail m) s).modStrand n
      fun x => { x with billet := none }) n (s.reportOf n b tail stopped closing).grade closing c
  unfold State.strandCount at counted
  rw [counted, State.modStrand_eq, State.strand_putStrand_self, strand_eq_of_strands (foldl_takeCoverage_strands ..)]

/-- Without a billet nothing is closed. -/
theorem State.closeBillet_of_none (none : (s.strand n).billet = none) : s.closeBillet n tail stopped closing = s := by
  unfold State.closeBillet
  rw [none]

theorem State.closeBillet_balance :
    closeBalance ((s.closeBillet n tail stopped closing).strand n).stats = closeBalance (s.strand n).stats := by
  cases opened : (s.strand n).billet with
  | none => rw [State.closeBillet_of_none s n tail stopped closing opened]
  | some b =>
    exact closeBalance_of_counts _ (State.closeBillet_count s n tail stopped closing opened) (closeCount_even _ _)

end

/-! ### The report queue (R140, R141) -/

theorem State.pushReport_rq (s : State) (rep : BilletReport) :
    (s.pushReport rep).rq =
      (if s.rq.length < 8 then s.rq else s.rq.drop 1) ++ [if s.rq.length < 8 then rep else withPriorLoss rep] := by
  unfold State.pushReport State.addReport State.billetReady
  by_cases room : s.rq.length < 8
  · rw [if_pos room, if_pos room, if_pos (show s.rq.length < reportCapacity from room), State.offer_rq]
  · rw [if_neg room, if_neg room, if_neg (show ¬s.rq.length < reportCapacity from room), State.offer_rq]
    unfold State.discardOldest
    cases held : s.rq with
    | nil => simp [held]
    | cons old rest => simp [State.raiseLink]


/-! ### The end of a cast (R14, R35, R87) -/

/-- A strand whose cast has ended, with the given counters (R14). -/
def Strand.endedWith (x : Strand) (stats : Vector Counter 20) : Strand :=
  { x with
    state := .idle, forecasts := [], schedule := [], history := [], billet := none, defects := [], trig := false
    stats := stats }

theorem State.abandon_strands (s : State) (m : ChannelId) : (s.abandon m).strands = s.strands := by
  unfold State.abandon
  split <;> rfl

theorem State.channelToIdle_strands (s : State) (m : ChannelId) : (s.channelToIdle m).strands = s.strands := by
  unfold State.channelToIdle
  dsimp only
  split
  iterate 2 exact State.offer_strands ..
  all_goals rfl

theorem State.eachChannel_strands (s : State) (n : StrandId) {f : ChannelId → State → State}
    (same : ∀ u m, (f m u).strands = u.strands) : (s.eachChannel n f).strands = s.strands :=
  foldl_keeps (P := fun u : State => u.strands = s.strands) _ _ rfl fun u m _ hu => (same u m).trans hu

theorem foldl_strands {f : State → ChannelId → State} (s : State) (ms : List ChannelId)
    (same : ∀ u m, (f u m).strands = u.strands) : (ms.foldl f s).strands = s.strands :=
  foldl_keeps (P := fun u : State => u.strands = s.strands) ms s rfl fun u m _ hu => (same u m).trans hu

theorem State.strandToIdle_strand (s : State) (n : StrandId) (reason : StrandReason) :
    (s.strandToIdle n reason).strand n = (s.strand n).endedWith (s.strand n).stats := by
  unfold State.strandToIdle State.strandNotice Strand.endedWith
  rw [State.offer_strand, State.modStrand_eq, State.strand_putStrand_self]

/-- Steps of a billet assembler change the billet's flags, the pending records and the counters (R125, R126). -/
theorem BilletSteps.frame {x y : Strand} (steps : BilletSteps x y) :
    y = { x with billet := y.billet, defects := y.defects, stats := y.stats } := by
  induction steps with
  | refl => rfl
  | tail _ step ih =>
    cases step with
    | record r room => rw [ih]
    | dropped full => rw [ih]
    | flagged f g => rw [ih]

theorem BilletSteps.balance {x y : Strand} (steps : BilletSteps x y) : closeBalance y.stats = closeBalance x.stats := by
  induction steps with
  | refl => rfl
  | tail _ step ih =>
    rw [← ih]
    cases step with
    | dropped full => simp [closeBalance, strandIndex]
    | _ => rfl

theorem LineSteps.foldl_billetSteps {f : State → ChannelId → State} (n : StrandId) (ms : List ChannelId) (s : State)
    (steps : ∀ u m, LineSteps m u (f u m)) : BilletSteps (s.strand n) ((ms.foldl f s).strand n) :=
  foldl_keeps (P := fun u : State => BilletSteps (s.strand n) (u.strand n)) ms s .refl fun u m _ hu =>
    hu.trans ((steps u m).billetSteps n)

section
variable (s : State) (n : StrandId)

/-- The state in which a stop closes the billet: awaits abandoned, tracks flushed (R14, R132). -/
def State.flushed : State := ((s.channelsOf n).foldl State.abandon s).eachChannel n fun m t => t.flush m

theorem State.flushed_billetSteps : BilletSteps (s.strand n) ((s.flushed n).strand n) := by
  have abandoned : ((s.channelsOf n).foldl State.abandon s).strand n = s.strand n :=
    strand_eq_of_strands (foldl_strands s _ fun u m => State.abandon_strands u m) n
  rw [← abandoned]
  exact LineSteps.foldl_billetSteps n _ (State.drawn _ _) fun u m => LineSteps.flush m u

/-- The state in which a stop has closed the billet at H (R132). -/
def State.stopClosed : State :=
  (s.flushed n).closeBillet n ((s.flushed n).strand n).high true ((s.flushed n).strand n).defects

theorem State.stopStrand_eq (reason : StrandReason) :
    s.stopStrand n reason = ((s.stopClosed n).eachChannel n State.channelToIdle).strandToIdle n reason := rfl

theorem State.stopStrand_strand (reason : StrandReason) :
    (s.stopStrand n reason).strand n = (s.strand n).endedWith ((s.stopClosed n).strand n).stats := by
  rw [State.stopStrand_eq, State.strandToIdle_strand,
    strand_eq_of_strands (State.eachChannel_strands _ n fun u m => State.channelToIdle_strands u m)]
  have closed := State.closeBillet_strand (s.flushed n) n ((s.flushed n).strand n).high true
    ((s.flushed n).strand n).defects
  have flushed := (State.flushed_billetSteps s n).frame
  unfold State.stopClosed Strand.endedWith
  rw [closed, flushed]

theorem State.stopClosed_balance : closeBalance ((s.stopClosed n).strand n).stats = closeBalance (s.strand n).stats :=
  (State.closeBillet_balance ..).trans (State.flushed_billetSteps s n).balance

end

/-! ### Cuts (R19, R127, R133) -/

section
variable (s : State) (n : StrandId) (k : Nat)

theorem State.countEmission_strands (m : ChannelId) (minMm : Nat) (rs : List DefectRecord) :
    (s.countEmission m minMm rs).strands = s.strands := rfl

theorem State.splitTracks_strands (m : ChannelId) : (s.splitTracks m k).strands = s.strands := rfl

/-- The state in which a cut closes the billet: counted, the tracks split, the pending queue parted (R19, R127). -/
def State.parted : State :=
  (((s.takeCut n k).channelsOf n).foldl (fun t m => t.splitTracks m k) (s.takeCut n k)).modStrand n (partitionQueue k)

/-- The state in which a cut has closed the billet at K, with the closing set of the cut (R127). -/
def State.cutClosed : State := (s.parted n k).closeBillet n k false ((s.takeCut n k).closingSet n k)

theorem State.closeAtCut_eq :
    s.closeAtCut n k = (s.cutClosed n k).modStrand n fun x => { x with history := dropEntriesBelow k x.history } := rfl

theorem State.takeCut_strand :
    (s.takeCut n k).strand n =
      { s.strand n with lastCut := k, stats := ((s.raiseStrand n .cutsAccepted).strand n).stats } := by
  simp [State.takeCut, State.modStrand_eq, State.raiseStrand_eq]

theorem State.parted_strand :
    (s.parted n k).strand n =
      { s.strand n with
        lastCut := k
        stats := ((s.raiseStrand n .cutsAccepted).strand n).stats
        defects := (s.strand n).defects.filterMap (keptPart (s.strand n).cfg.umPerCount k) } := by
  unfold State.parted
  rw [State.modStrand_eq, State.strand_putStrand_self,
    strand_eq_of_strands (foldl_strands _ _ fun u m => State.splitTracks_strands u k m), State.takeCut_strand]
  rfl

theorem State.closeAtCut_strand :
    (s.closeAtCut n k).strand n =
      { s.strand n with
        lastCut := k
        stats := ((s.closeAtCut n k).strand n).stats
        defects := (s.strand n).defects.filterMap (keptPart (s.strand n).cfg.umPerCount k)
        billet := none
        history := dropEntriesBelow k (s.strand n).history } := by
  rw [State.closeAtCut_eq, State.modStrand_eq, State.strand_putStrand_self]
  unfold State.cutClosed
  rw [State.closeBillet_strand, State.parted_strand]

theorem State.closeAtCut_balance :
    closeBalance ((s.closeAtCut n k).strand n).stats = closeBalance (s.strand n).stats := by
  rw [State.closeAtCut_eq, State.modStrand_eq, State.strand_putStrand_self]
  refine Eq.trans (b := closeBalance ((s.cutClosed n k).strand n).stats) rfl ?_
  refine (State.closeBillet_balance ..).trans ?_
  refine closeBalance_of_counts (fun c => if c = .cutsAccepted then BitVec.ofNat 32 1 else 0) (fun c => ?_) rfl
  rw [State.parted_strand]
  exact State.strandCount_raiseStrand ..

/-- The state in which FINISHING ends: the tail discarded, awaits abandoned, tracks discarded (R133, R118). -/
def State.tracksDiscarded : State :=
  ((s.discardTail n).channelsOf n).foldl (fun t m => (t.abandon m).modTt m freeTable) (s.discardTail n)

theorem State.endFinishing_eq :
    s.endFinishing n = ((s.tracksDiscarded n).eachChannel n State.channelToIdle).strandToIdle n .finished := rfl

theorem State.endFinishing_strand :
    (s.endFinishing n).strand n =
      (s.strand n).endedWith ((s.raiseStrand n .tailDiscarded (s.strand n).defects.length).strand n).stats := by
  rw [State.endFinishing_eq, State.strandToIdle_strand,
    strand_eq_of_strands (State.eachChannel_strands _ n fun u m => State.channelToIdle_strands u m)]
  unfold State.tracksDiscarded
  rw [strand_eq_of_strands (foldl_strands (f := fun t m => (t.abandon m).modTt m freeTable) _ _ fun u m =>
    State.abandon_strands u m)]
  simp [State.discardTail, State.modStrand_eq, State.raiseStrand_eq, Strand.endedWith]

end

end Sys2Proof.Machine

/-! What commands do to a strand, in steps (01, 04, 07, 08): a property of a strand that each step keeps is kept by
every command. -/

namespace Sys2Proof.Machine

/-! ### The line trigger (R8, R159) -/

/-- The history after a schedule entry is handled at the line's coordinate: the copy entered from a VALID slot, the
history as it stood otherwise (R159). -/
def State.historyWith (s : State) (line : Nat) (h : List HistoryEntry) (e : ScheduleEntry) : List HistoryEntry :=
  match (s.slot e.slot).content with
  | .valid r => enterHistory h ⟨line, e.slot, (s.slot e.slot).revision, false, r⟩
  | .empty | .writing => h

/-- The schedule entries due at a line (R159). -/
def dueAt (line : Nat) (schedule : List ScheduleEntry) : List ScheduleEntry :=
  schedule.takeWhile fun e => decide (e.coord ≤ line)

section
variable (s : State) (n : StrandId) (line : Nat)

theorem State.applyEntry_strand (before : Option Recipe) (e : ScheduleEntry) :
    (s.applyEntry n line before e).strand n =
      { s.strand n with history := s.historyWith line (s.strand n).history e } := by
  cases held : (s.slot e.slot).content with
  | valid r =>
    simp only [State.applyEntry, State.historyWith, held, State.offer_strand, State.modStrand_eq,
      State.strand_putStrand_self]
  | empty | writing => simp only [State.applyEntry, State.historyWith, held, State.offer_strand]

theorem State.applyEntry_store (before : Option Recipe) (e : ScheduleEntry) :
    (s.applyEntry n line before e).store = s.store := by
  unfold State.applyEntry
  dsimp only
  split
  · rw [State.offer_store]
    rfl
  all_goals rw [State.offer_store]

theorem State.historyWith_of_store {t : State} (same : t.store = s.store) : t.historyWith = s.historyWith := by
  funext line h e
  unfold State.historyWith
  rw [slot_eq_of_store same]

theorem State.foldl_applyEntry_strand (before : Option Recipe) (due : List ScheduleEntry) :
    (due.foldl (State.applyEntry n line before) s).strand n =
      { s.strand n with history := due.foldl (s.historyWith line) (s.strand n).history } := by
  induction due generalizing s with
  | nil => rfl
  | cons e due ih =>
    rw [List.foldl_cons, ih, State.applyEntry_strand,
      State.historyWith_of_store s (State.applyEntry_store s n line before e)]
    rfl

theorem State.applySchedule_strand :
    (s.applySchedule n line).strand n =
      { s.strand n with
        schedule := (s.strand n).schedule.drop (dueAt line (s.strand n).schedule).length
        history := (dueAt line (s.strand n).schedule).foldl (s.historyWith line) (s.strand n).history } := by
  refine (State.foldl_applyEntry_strand _ n line _ _).trans ?_
  rw [State.modStrand_eq, State.strand_putStrand_self]
  rfl

/-- The state in which a trigger is handed to the channels: the strand's own part done, the due grade changes
handled (R8, R159). -/
def State.triggered : State :=
  ((s.modStrand n triggeredStrand).raiseStrand n .triggers).applySchedule n (s.strand n).nextTrigger

/-- A grade change of the trigger restarts the channels (R160). -/
def State.restartsAtTrigger : Bool :=
  recipeChange (newestRecipe (s.strand n).history) (newestRecipe ((s.triggered n).strand n).history)

theorem State.lineTrigger_eq :
    s.lineTrigger n =
      (s.triggered n).eachChannel n
        (State.takeTrigger ((s.strand n).nextTrigger / (s.strand n).cfg.countsPerLine) (s.strand n).nextTrigger
          (s.restartsAtTrigger n)) := rfl

theorem State.triggered_strand :
    (s.triggered n).strand n =
      { s.strand n with
        lastTrigger := (s.strand n).nextTrigger
        nextTrigger := (s.strand n).nextTrigger + (s.strand n).cfg.countsPerLine
        trig := true
        stats := ((s.raiseStrand n .triggers).strand n).stats
        schedule := (s.strand n).schedule.drop (dueAt (s.strand n).nextTrigger (s.strand n).schedule).length
        history :=
          (dueAt (s.strand n).nextTrigger (s.strand n).schedule).foldl (s.historyWith (s.strand n).nextTrigger)
            (s.strand n).history } := by
  have same := State.historyWith_of_store s (t := (s.modStrand n triggeredStrand).raiseStrand n .triggers) rfl
  unfold State.triggered
  rw [State.applySchedule_strand, same]
  simp [State.raiseStrand_eq, State.modStrand_eq, triggeredStrand, State.strandCount]

theorem State.lineTrigger_billetSteps : BilletSteps ((s.triggered n).strand n) ((s.lineTrigger n).strand n) := by
  rw [State.lineTrigger_eq]
  exact LineSteps.foldl_billetSteps n _ (State.drawn _ _) fun u m => LineSteps.takeTrigger m u _ _ _

end

/-! ### Steps of a strand -/

/-- A copy is entered in a history at a coordinate (R156, R159). -/
def EntersAt (line : Nat) (h h' : List HistoryEntry) : Prop := ∃ e : HistoryEntry, e.coord = line ∧ h' = enterHistory h e

theorem entersAt_historyWith (s : State) (line : Nat) (due : List ScheduleEntry) (h : List HistoryEntry) :
    Relation.ReflTransGen (EntersAt line) h (due.foldl (s.historyWith line) h) := by
  refine foldl_keeps (P := Relation.ReflTransGen (EntersAt line) h) due h .refl fun h' e _ entered => ?_
  unfold State.historyWith
  split
  · exact entered.tail ⟨_, rfl, rfl⟩
  all_goals exact entered

/-- One change of a strand, with what holds where it is made; H stays. -/
inductive StrandStep (x : Strand) : Strand → Prop
  | counted (stats : Vector Counter 20) (balanced : closeBalance x.stats = 0 → closeBalance stats = 0) :
    StrandStep x { x with stats := stats }
  | numbered (number : BitVec 16) : StrandStep x { x with billetCounter := number }
  | levels (phase : Phase) (osc cut : Bool) :
    StrandStep x { x with phase := phase, oscLevel := osc, cutLevel := cut }
  | trigLow : StrandStep x { x with trig := false }
  | travelled (t : Nat) (below : t ≤ x.high ∨ t ≤ x.travel) : StrandStep x { x with travel := t }
  | retired : StrandStep x (retireForecasts x)
  | forecast (casting : x.state ≠ .idle) (room : x.forecasts.length < 24) :
    StrandStep x { x with forecasts := x.forecasts ++ [x.high + x.cfg.mouldToSensor] }
  | forecastLost (f : OpenBillet → OpenBillet) : StrandStep x { x with billet := x.billet.map f }
  | line {y : Strand} (step : BilletStep x y) (holds : x.state = .idle → x.history ≠ []) : StrandStep x y
  | triggered (history : List HistoryEntry) (casting : x.state ≠ .idle) (reached : x.high = x.nextTrigger)
    (entered : Relation.ReflTransGen (EntersAt x.nextTrigger) x.history history) :
    StrandStep x
      { x with
        lastTrigger := x.nextTrigger, nextTrigger := x.nextTrigger + x.cfg.countsPerLine, trig := true
        schedule := x.schedule.drop (dueAt x.nextTrigger x.schedule).length, history := history }
  | cut (k : Nat) (b : OpenBillet) (casting : x.state ≠ .idle) :
    StrandStep x
      { x with
        lastCut := k, defects := x.defects.filterMap (keptPart x.cfg.umPerCount k), billet := some b
        billetCounter := x.billetCounter + 1, history := dropEntriesBelow k x.history }
  | cutLast (k : Nat) : StrandStep x { x with lastCut := k }
  | ended (stats : Vector Counter 20) (balanced : closeBalance x.stats = 0 → closeBalance stats = 0) :
    StrandStep x (x.endedWith stats)
  | configured (cfg : StrandConfig) (idle : x.state = .idle) (pitch : 1 ≤ cfg.countsPerLine) :
    StrandStep x { x with cfg := cfg }
  | finishing (casting : x.state = .casting) : StrandStep x { x with state := .finishing }
  | scheduled (g : Nat) (i : SlotId) (casting : x.state ≠ .idle) (order : outOfOrder x g = false)
    (room : x.schedule.length < 4) : StrandStep x { x with schedule := x.schedule ++ [⟨g, i⟩] }
  | unscheduled : StrandStep x { x with schedule := [] }

/-- Steps of a strand one behind the other. -/
abbrev StrandSteps : Strand → Strand → Prop := Relation.ReflTransGen StrandStep

theorem StrandSteps.single {x y : Strand} (step : StrandStep x y) : StrandSteps x y := Relation.ReflTransGen.single step

theorem BilletSteps.strandSteps {x y : Strand} (steps : BilletSteps x y) (holds : x.state = .idle → x.history ≠ []) :
    StrandSteps x y := by
  induction steps with
  | refl => exact .refl
  | tail before step ih =>
    refine ih.tail (.line step ?_)
    rw [BilletSteps.frame before]
    exact holds

/-- What a command does to a strand: steps, a forward count at H, a START_STRAND, or a restart. -/
inductive StrandChange (c : Instr) (x : Strand) : Strand → Prop
  | steps {y : Strand} (steps : StrandSteps x y) : StrandChange c x y
  | raised (phase : Phase) {y : Strand} (casting : x.state ≠ .idle) (top : x.high ≤ x.travel)
    (before : x.travel < maxCoord)
    (steps : StrandSteps { x with phase := phase, travel := x.travel + 1, high := x.travel + 1 } y) : StrandChange c x y
  | started (e : HistoryEntry) (b : OpenBillet) (first : e.coord = 0) (zeroes : zeroesTravel c = true) :
    StrandChange c x { startedStrand e x with billet := some b, billetCounter := x.billetCounter + 1 }
  | afresh (stats : Vector Counter 20) (number : BitVec 16) (zeroes : zeroesTravel c = true)
    (balanced : closeBalance x.stats = 0 → closeBalance stats = 0) :
    StrandChange c x (Strand.initial stats number)

theorem StrandChange.refl {c : Instr} {x : Strand} : StrandChange c x x := .steps .refl

/-! ### Each command's operation as a change of a strand -/

section
variable {s t : State}

/-- The event of a line of channel m, as steps of every strand: it leaves an IDLE strand without a history alone. -/
theorem strandSteps_of_line {m : ChannelId} (kept : LineKept m s t) (steps : LineSteps m s t)
    (still : (s.strandOf m).state = .idle → (s.strandOf m).history = [] → t.strands = s.strands) (n : StrandId) :
    StrandSteps (s.strand n) (t.strand n) := by
  by_cases own : n = (s.channel m).cfg.strand
  · by_cases holds : (s.strand n).state = .idle → (s.strand n).history ≠ []
    · exact (steps.billetSteps n).strandSteps holds
    · rw [Classical.not_imp, not_not] at holds
      subst own
      rw [strand_eq_of_strands (still holds.1 holds.2)]
  · obtain ⟨-, -, others, -⟩ := kept
    rw [others n own]

theorem State.settleMissed_strands (m : ChannelId) (bare : (s.strandOf m).history = []) :
    (s.settleMissed m).strands = s.strands := by
  unfold State.settleMissed
  split
  · rfl
  next k line expected _ =>
    have same : (((s.raiseChannel m .missed).endAwait m (some expected)).strandOf m).history = (s.strandOf m).history := by
      simp [State.strandOf, State.raiseChannel_eq, State.endAwait, State.modRx_eq]
    unfold State.settle
    rw [State.handleLine_of_no_recipe]
    · rfl
    · rw [same, bare]
      rfl

theorem State.releaseChannel_strands (m : ChannelId) (bare : (s.strandOf m).history = []) :
    (s.releaseChannel m).strands = s.strands := by
  have there : s.windowGone m = false := by
    unfold State.windowGone newestRecipe
    rw [bare]
    rfl
  unfold State.releaseChannel
  rw [there]
  exact State.offer_strands ..

theorem State.classify_strands {m : ChannelId} {f : ScanFrame} (idle : (s.strandOf m).state = .idle) :
    (s.classify m f).strands = s.strands := by
  unfold State.classify State.inCast
  rw [idle]
  simp only [bne_self_eq_false, Bool.and_false, Bool.not_false, if_true]
  rfl

theorem State.framingFailure_strands {m : ChannelId} (idle : (s.strandOf m).state = .idle) :
    (s.framingFailure m).strands = s.strands := by
  unfold State.framingFailure State.inCast
  rw [idle]
  simp only [bne_self_eq_false, Bool.and_false, Bool.false_eq_true, if_false]
  rfl

end

end Sys2Proof.Machine

/-! Each command's operation as a change of its strand, and no change of the others. -/

namespace Sys2Proof.Machine

/-! ### The operations of a strand -/

/-- The counters that the sum of R139 speaks of. -/
def ofBalance : StrandCounter → Bool
  | .billetsClosed | .accept | .condition | .unverified | .reject => true
  | .triggers | .reverseAtZero | .forecasts | .forecastDrop | .cutsAccepted | .cutEarly | .doubleCut | .cutIdle
  | .defectDrop | .tailDiscarded | .bin0 | .bin20 | .bin50 | .bin100 | .bin200 => false

section
variable (s : State) (n : StrandId)

theorem closeBalance_raiseStrand {c : StrandCounter} (other : ofBalance c = false) (k : Nat) :
    closeBalance ((s.raiseStrand n c k).strand n).stats = closeBalance (s.strand n).stats := by
  have ne : ∀ d, ofBalance d = true → d ≠ c := by
    rintro d own rfl
    exact absurd (own.symm.trans other) nofun
  refine closeBalance_of_counts (fun d => if d = c then BitVec.ofNat 32 k else 0)
    (fun d => State.strandCount_raiseStrand s n c d k) ?_
  simp [ne .billetsClosed rfl, ne .accept rfl, ne .condition rfl, ne .unverified rfl, ne .reject rfl]

theorem strandSteps_raiseStrand {c : StrandCounter} (other : ofBalance c = false) (k : Nat) :
    StrandSteps (s.strand n) ((s.raiseStrand n c k).strand n) := by
  have balanced := closeBalance_raiseStrand s n other k
  rw [State.raiseStrand_eq, State.strand_putStrand_self] at *
  exact .single (.counted _ fun zero => balanced.trans zero)

theorem strandSteps_stopStrand (reason : StrandReason) :
    StrandSteps (s.strand n) ((s.stopStrand n reason).strand n) := by
  rw [State.stopStrand_strand]
  exact .single (.ended _ fun zero => (State.stopClosed_balance s n).trans zero)

theorem strandSteps_lineTrigger (casting : (s.strand n).state ≠ .idle)
    (reached : (s.strand n).high = (s.strand n).nextTrigger) :
    StrandSteps (s.strand n) ((s.lineTrigger n).strand n) := by
  have counted := strandSteps_raiseStrand s n (c := .triggers) rfl 1
  have lines := State.lineTrigger_billetSteps s n
  rw [State.triggered_strand] at lines
  refine Relation.ReflTransGen.trans ?_ (lines.strandSteps fun idle => absurd idle casting)
  refine Relation.ReflTransGen.tail counted ?_
  rw [State.raiseStrand_eq, State.strand_putStrand_self]
  exact .triggered (x := { s.strand n with stats := _ }) _ casting reached (entersAt_historyWith ..)

theorem strandSteps_highRaised (casting : (s.strand n).state ≠ .idle) :
    StrandSteps (s.strand n) ((s.highRaised n).strand n) := by
  have retired : StrandSteps (s.strand n) ((s.modStrand n retireForecasts).strand n) := by
    rw [State.modStrand_eq, State.strand_putStrand_self]
    exact .single .retired
  unfold State.highRaised
  dsimp only
  split
  · next due =>
      simp only [triggerDue, Bool.and_eq_true, beq_iff_eq] at due
      refine retired.trans (strandSteps_lineTrigger _ n ?_ due.1)
      rw [State.modStrand_eq, State.strand_putStrand_self]
      exact casting
  · exact retired

theorem strandSteps_reverseCount : StrandSteps (s.strand n) ((s.reverseCount n).strand n) := by
  unfold State.reverseCount
  split
  · exact strandSteps_raiseStrand s n rfl 1
  · rw [State.modStrand_eq, State.strand_putStrand_self]
    exact .single (.travelled _ (.inr (Nat.sub_le _ 1)))

theorem strandChange_encoderCount (input : EncInput) :
    StrandChange (.encoderCount n input) (s.strand n) ((s.encoderCount n input).strand n) := by
  have levelled : StrandSteps (s.strand n)
      ((s.modStrand n fun y => { y with phase := flipInput y.phase input }).strand n) := by
    rw [State.modStrand_eq, State.strand_putStrand_self]
    exact .single (.levels _ _ _)
  have counts : (s.strand n).state ≠ .idle →
      StrandChange (.encoderCount n input) (s.strand n)
        ((if countsForward (s.strand n).cfg.sign (s.strand n).phase input then
          (s.modStrand n fun y => { y with phase := flipInput y.phase input }).forwardCount n
        else (s.modStrand n fun y => { y with phase := flipInput y.phase input }).reverseCount n).strand n) := by
    intro casting
    split
    · unfold State.forwardCount
      dsimp only
      split
      · exact .steps (levelled.trans (strandSteps_stopStrand _ n _))
      next before =>
        rw [Nat.not_le, State.modStrand_eq, State.strand_putStrand_self] at before
        split
        · next above =>
            rw [State.modStrand_eq, State.strand_putStrand_self] at above
            refine .raised (flipInput (s.strand n).phase input) casting (Nat.le_of_lt_succ above) before ?_
            have raised := strandSteps_highRaised
              ((s.modStrand n fun y => { y with phase := flipInput y.phase input }).modStrand n fun y =>
                { y with travel := y.travel + 1, high := y.travel + 1 }) n
            simp only [State.modStrand_eq, State.strand_putStrand_self] at raised ⊢
            exact raised casting
        · next below =>
            refine .steps (levelled.tail ?_)
            simp only [State.modStrand_eq, State.strand_putStrand_self] at below ⊢
            exact .travelled (x := { s.strand n with phase := _ }) _ (.inl (Nat.not_lt.1 below))
    · exact .steps (levelled.trans (strandSteps_reverseCount _ n))
  unfold State.encoderCount
  dsimp only
  split
  · exact .steps levelled
  · next casting => exact counts (by rw [casting]; nofun)
  · next finishing => exact counts (by rw [finishing]; nofun)

theorem strandSteps_acceptCut (k : Nat) (casting : (s.strand n).state ≠ .idle) :
    StrandSteps (s.strand n) ((s.acceptCut n k).strand n) := by
  have closed := State.closeAtCut_strand s n k
  have balance := State.closeAtCut_balance s n k
  have counted : StrandStep (s.strand n) { s.strand n with stats := ((s.closeAtCut n k).strand n).stats } :=
    .counted _ fun zero => balance.trans zero
  have opened : StrandSteps (s.strand n) (((s.closeAtCut n k).openBillet n k false).strand n) := by
    unfold State.openBillet
    rw [State.modStrand_eq, State.strand_putStrand_self, closed]
    exact .tail (.single counted) (.cut (x := { s.strand n with stats := _ }) k _ casting)
  unfold State.acceptCut
  dsimp only
  split
  · rw [State.endFinishing_strand]
    have last : StrandStep (s.strand n) { s.strand n with lastCut := k } := .cutLast k
    have total := (closeBalance_raiseStrand (s.closeAtCut n k) n (c := .tailDiscarded) rfl
      ((s.closeAtCut n k).strand n).defects.length).trans balance
    have kept : ∀ stats, ((s.closeAtCut n k).strand n).endedWith stats =
        Strand.endedWith { s.strand n with lastCut := k } stats := by
      rw [closed]
      exact fun _ => rfl
    rw [kept]
    exact Relation.ReflTransGen.head last (.single (.ended _ fun zero => total.trans zero))
  all_goals exact opened

theorem strandSteps_cut : StrandSteps (s.strand n) ((s.cut n).strand n) := by
  unfold State.cut
  split
  iterate 3 exact strandSteps_raiseStrand s n rfl 1
  next accepted =>
    refine strandSteps_acceptCut s n _ fun idle => ?_
    rw [cutOutcome, if_pos idle] at accepted
    exact nomatch accepted

theorem strandSteps_mouldStroke (casting : (s.strand n).state ≠ .idle) :
    StrandSteps (s.strand n) ((s.mouldStroke n).strand n) := by
  unfold State.mouldStroke
  dsimp only
  split
  · next room =>
      refine Relation.ReflTransGen.trans ?_ (strandSteps_raiseStrand _ n (c := .forecasts) rfl 1)
      rw [State.modStrand_eq, State.strand_putStrand_self]
      exact .single (.forecast casting room)
  · refine (strandSteps_raiseStrand s n (c := .forecastDrop) rfl 1).tail ?_
    rw [State.modBillet, State.modStrand_eq, State.strand_putStrand_self]
    exact .forecastLost _

end

end Sys2Proof.Machine

/-! Every command as a change of each strand. -/

namespace Sys2Proof.Machine

/-! ### Changes of the other strands -/

section
variable {s t : State} {c : Instr}

/-- An event of strand n changes strand n, and no other. -/
theorem strandChange_of_kept {n : StrandId} (kept : StrandKept n s t) (own : StrandChange c (s.strand n) (t.strand n))
    (j : StrandId) : StrandChange c (s.strand j) (t.strand j) := by
  by_cases e : j = n
  · rw [e]
    exact own
  · rw [kept.strand_ne e]
    exact .refl

theorem strandChange_of_strands (same : t.strands = s.strands) (n : StrandId) :
    StrandChange c (s.strand n) (t.strand n) := by
  rw [strand_eq_of_strands same]
  exact .refl

theorem strandChange_modStrand (n : StrandId) (f : Strand → Strand) (step : StrandStep (s.strand n) (f (s.strand n)))
    (j : StrandId) : StrandChange c (s.strand j) ((s.modStrand n f).strand j) := by
  refine strandChange_of_kept (.modStrand n s f) ?_ j
  rw [State.modStrand_eq, State.strand_putStrand_self]
  exact .steps (.single step)

theorem Strand.initial_clearCounts (s : State) (cause : RestartCause) (n : StrandId) :
    ∃ stats number, (s.clearCounts cause).strand n = { s.strand n with stats := stats, billetCounter := number } ∧
      (closeBalance (s.strand n).stats = 0 → closeBalance stats = 0) := by
  unfold State.clearCounts
  split
  · exact ⟨Vector.replicate 20 0, 0, by simp [State.strand], fun _ => by simp [closeBalance]⟩
  · exact ⟨_, _, rfl, id⟩

theorem State.blocksInitial_strand (s : State) (n : StrandId) :
    s.blocksInitial.strand n = Strand.initial (s.strand n).stats (s.strand n).billetCounter := by
  simp [State.strand, State.blocksInitial]

theorem State.strand_withChannels (s : State) (channels : Vector Channel 8) (n : StrandId) :
    State.strand { s with channels := channels } n = s.strand n := rfl

theorem State.startStrand_strand (s : State) (n : StrandId) (e : HistoryEntry) :
    ∃ b, (s.startStrand n e).strand n =
      { startedStrand e (s.strand n) with billet := some b, billetCounter := (s.strand n).billetCounter + 1 } := by
  rw [State.startStrand_eq]
  simp only [State.strandNotice, State.openBillet, State.offer_strand, State.modStrand_eq, State.strand_putStrand_self,
    State.strand_withChannels]
  exact ⟨_, rfl⟩

theorem State.startStrand_strand_ne (s : State) {n : StrandId} (e : HistoryEntry) {j : StrandId} (other : j ≠ n) :
    (s.startStrand n e).strand j = s.strand j := by
  rw [State.startStrand_eq]
  simp only [State.strandNotice, State.openBillet, State.offer_strand, State.modStrand_eq,
    State.strand_putStrand_ne _ _ other, State.strand_withChannels]

theorem State.storeDone_strands (s : State) (op slot : Nat) (result : ResultCode) (state revision : Nat) :
    (s.storeDone op slot result state revision).strands = s.strands := State.offer_strands ..

theorem State.slotDone_strands (s : State) (op : Nat) (i : SlotId) (result : ResultCode) :
    (s.slotDone op i result).strands = s.strands := State.offer_strands ..

theorem State.releaseRestart_strand (s : State) (pins : ReleasePins) (n : StrandId) :
    (s.releaseRestart pins).strand n =
      { (s.clearCounts (restartCause s.sup)).strand n with
        phase := pins.phases[n], cutLevel := pins.cut[n], oscLevel := pins.osc[n] } := by
  simp [State.strand, State.releaseRestart, State.modSup]

theorem State.halted_strand (s : State) (f : Supervisor → Supervisor) (n : StrandId) :
    State.strand { s.modSup f with strands := Vector.ofFn fun n => { s.strands[n] with trig := false } } n =
      { s.strand n with trig := false } := by
  simp [State.strand]

theorem Acts.strandChange (acts : Acts c s t) (n : StrandId) : StrandChange c (s.strand n) (t.strand n) := by
  cases acts with
  | count j input => exact strandChange_of_kept (.encoderCount j s input) (strandChange_encoderCount s j input) n
  | bothInputs j => exact strandChange_modStrand j _ (.levels _ _ _) n
  | pulseEnd j => exact strandChange_modStrand j _ .trigLow n
  | strokeIdle j => exact strandChange_modStrand j _ (.levels _ _ _) n
  | stroke j _ casting =>
    refine strandChange_of_kept ((StrandKept.modStrand j s _).trans (.mouldStroke j _)) (.steps ?_) n
    have stroke := strandSteps_mouldStroke (s.modStrand j fun x => { x with oscLevel := true }) j
    simp only [State.modStrand_eq, State.strand_putStrand_self] at stroke ⊢
    exact .head (.levels _ true _) (stroke casting)
  | cutEdge j =>
    refine strandChange_of_kept ((StrandKept.modStrand j s _).trans (.cut j _)) (.steps ?_) n
    have cut := strandSteps_cut (s.modStrand j fun x => { x with cutLevel := true }) j
    simp only [State.modStrand_eq, State.strand_putStrand_self] at cut ⊢
    exact .head (.levels _ _ true) cut
  | cutRequest j => exact strandChange_of_kept (.cut j s) (.steps (strandSteps_cut s j)) n
  | frame m f =>
    refine .steps (strandSteps_of_line ((LineKept.modRx m s _).trans (.classify m _ f))
      ((LineSteps.hunt m s).trans (.classify m _ f)) (fun idle _ => ?_) n)
    exact (State.classify_strands (s := s.hunt m) (by simpa [State.hunt, State.modRx_eq, State.strandOf] using idle)).trans
      rfl
  | frameFails m f =>
    refine .steps (strandSteps_of_line ((LineKept.modRx m s _).trans (.framingFailure m _))
      ((LineSteps.hunt m s).trans (.framingFailure m _)) (fun idle _ => ?_) n)
    exact (State.framingFailure_strands (s := s.hunt m)
      (by simpa [State.hunt, State.modRx_eq, State.strandOf] using idle)).trans rfl
  | gap m inHeader =>
    refine .steps (strandSteps_of_line ((LineKept.modRx m s _).trans (.framingFailure m _))
      ((LineSteps.hunt m s).trans (.framingFailure m _)) (fun idle _ => ?_) n)
    exact (State.framingFailure_strands (s := s.hunt m)
      (by simpa [State.hunt, State.modRx_eq, State.strandOf] using idle)).trans rfl
  | waitExpires m k =>
    exact .steps (strandSteps_of_line (.settleMissed m s) (.settleMissed m s)
      (fun _ bare => State.settleMissed_strands m bare) n)
  | release m _ locked =>
    exact .steps (strandSteps_of_line (.releaseChannel m s) (.releaseChannel m s locked)
      (fun _ bare => State.releaseChannel_strands m bare) n)
  | clearStrandStats j => exact strandChange_modStrand j _ (.counted _ fun _ => by simp [closeBalance]) n
  | configure j cfg _ idle pitch => exact strandChange_modStrand j _ (.configured cfg idle pitch) n
  | start j i revision r _ idle =>
    obtain ⟨b, own⟩ := State.startStrand_strand s j ⟨0, i, revision, false, r⟩
    by_cases e : n = j
    · rw [e, own]
      exact .started _ b rfl rfl
    · rw [State.startStrand_strand_ne s _ e]
      exact .refl
  | finish j _ casting =>
    refine strandChange_of_kept ((StrandKept.modStrand j s _).trans (.strandNotice j _ _)) ?_ n
    unfold State.strandNotice
    rw [State.offer_strand, State.modStrand_eq, State.strand_putStrand_self]
    exact .steps (.single (.finishing casting))
  | stop j _ casting =>
    exact strandChange_of_kept (.stopStrand j s _) (.steps (strandSteps_stopStrand s j _)) n
  | schedule j g i _ casting order room => exact strandChange_modStrand j _ (.scheduled g i casting order room) n
  | clearSchedule j => exact strandChange_modStrand j _ .unscheduled n
  | stored i r verified =>
    exact strandChange_of_strands (by rw [State.slotDone_strands, State.setOp_strands]; rfl) n
  | frozen i verified =>
    exact strandChange_of_strands (by rw [State.slotDone_strands, State.setOp_strands]; rfl) n
  | beginClear => exact strandChange_of_strands (by rw [State.setOp_strands, State.modSlots_strands]) n
  | cleared =>
    exact strandChange_of_strands (by rw [State.storeDone_strands, State.setOp_strands, State.modSlots_strands]) n
  | hostFrame f crc =>
    unfold State.acceptFrame
    split <;> exact strandChange_of_strands rfl n
  | frameAbandoned c rx =>
    unfold State.abandonFrame
    split <;> exact strandChange_of_strands rfl n
  | hold c f cause _ event zeroes =>
    obtain ⟨stats, number, kept, balanced⟩ := Strand.initial_clearCounts (s.modSup f).blocksInitial cause n
    rw [kept, State.blocksInitial_strand] at *
    exact .afresh stats number zeroes balanced
  | halt =>
    refine .steps (.single ?_)
    rw [State.halted_strand]
    exact .trigLow
  | released pins =>
    obtain ⟨stats, number, kept, balanced⟩ := Strand.initial_clearCounts s (restartCause s.sup) n
    rw [State.releaseRestart_strand, kept]
    exact .steps (.head (.counted stats balanced) (.head (.numbered number) (.single (.levels _ _ _))))
  | _ => exact strandChange_of_strands rfl n

end

end Sys2Proof.Machine

/-! What holds of a strand between any two commands (01, 04, 07, 08): its queues within their capacity, nothing left of
a cast while it is IDLE, its coordinates in order, and the balance of its close counters. -/

namespace Sys2Proof.Machine

/-! ### The recipe history (R155, R156, R159) -/

/-- The entries of a history stand in strictly increasing order, none beyond the given coordinate. -/
def HistoryUpTo (line : Nat) (h : List HistoryEntry) : Prop :=
  (h.map (·.coord)).Pairwise (· < ·) ∧ ∀ e ∈ h, e.coord ≤ line

theorem mergeOldestEntries_coords (h : List HistoryEntry) :
    ((mergeOldestEntries h).map (·.coord)).Sublist (h.map (·.coord)) := by
  match h with
  | [] => exact .refl _
  | [_] => exact .refl _
  | _ :: _ :: _ => exact .cons_cons _ (.cons _ (.refl _))

theorem mergeOldestEntries_length (h : List HistoryEntry) (two : 2 ≤ h.length) :
    (mergeOldestEntries h).length + 1 = h.length := by
  match h, two with
  | _ :: _ :: _, _ => rfl

/-- A copy enters a history in one of three ways: for the newest entry, after a merge of the two oldest, or behind. -/
theorem enterHistory_cases (h : List HistoryEntry) (e : HistoryEntry) :
    (∃ older newest, h = older ++ [newest] ∧ newest.coord = e.coord ∧ enterHistory h e = older ++ [e]) ∨
      (∀ newest, h.getLast? = some newest → newest.coord ≠ e.coord) ∧
        enterHistory h e = (if 5 ≤ h.length then mergeOldestEntries h else h) ++ [e] := by
  unfold enterHistory
  split
  · next newest found =>
      by_cases same : newest.coord = e.coord
      · rw [if_pos same]
        exact .inl ⟨_, newest, (List.dropLast_append_getLast? newest found).symm, same, rfl⟩
      · rw [if_neg same]
        refine .inr ⟨fun other own => ?_, rfl⟩
        obtain rfl := Option.some.inj (found.symm.trans own)
        exact same
  · next none =>
      obtain rfl := List.getLast?_eq_none_iff.1 none
      exact .inr ⟨nofun, rfl⟩

theorem enterHistory_length_le {h : List HistoryEntry} (fits : h.length ≤ 5) (e : HistoryEntry) :
    (enterHistory h e).length ≤ 5 := by
  rcases enterHistory_cases h e with ⟨older, newest, rfl, -, entered⟩ | ⟨-, entered⟩
  · rw [entered]
    simpa using fits
  · rw [entered, List.length_append, List.length_singleton]
    split
    · next full =>
        have := mergeOldestEntries_length h (by omega)
        omega
    · omega

theorem HistoryUpTo.enter {line : Nat} {h : List HistoryEntry} (ordered : HistoryUpTo line h) {e : HistoryEntry}
    (at' : e.coord = line) : HistoryUpTo line (enterHistory h e) := by
  obtain ⟨rising, bounded⟩ := ordered
  have behind : ∀ older : List HistoryEntry, (older.map (·.coord)).Pairwise (· < ·) →
      (∀ c ∈ older.map (·.coord), c < line) → HistoryUpTo line (older ++ [e]) := by
    intro older rising below
    refine ⟨?_, fun f mem => ?_⟩
    · rw [List.map_append, List.pairwise_append]
      exact ⟨rising, List.pairwise_singleton _ _, fun a mem b last => by
        rw [List.mem_singleton.1 last]
        exact (below a mem).trans_eq at'.symm⟩
    · rcases List.mem_append.1 mem with old | new
      · exact (below f.coord (List.mem_map_of_mem old)).le
      · obtain rfl := List.mem_singleton.1 new
        exact at'.le
  rcases enterHistory_cases h e with ⟨older, newest, rfl, same, entered⟩ | ⟨differs, entered⟩
  · rw [List.map_append, List.pairwise_append] at rising
    rw [entered]
    exact behind older rising.1 fun c mem =>
      (rising.2.2 c mem newest.coord (List.mem_singleton.2 rfl)).trans_eq (same.trans at')
  · have below : ∀ c ∈ h.map (·.coord), c < line := by
      rcases List.eq_nil_or_concat h with rfl | ⟨older, newest, rfl⟩
      · nofun
      · rw [List.concat_eq_append] at *
        have last : newest.coord < line :=
          lt_of_le_of_ne (bounded newest (by simp)) fun c => differs newest (by simp) (c.trans at'.symm)
        intro c mem
        rw [List.map_append, List.pairwise_append] at rising
        rw [List.map_append] at mem
        rcases List.mem_append.1 mem with old | new
        · exact (rising.2.2 c old newest.coord (List.mem_singleton.2 rfl)).trans last
        · obtain rfl := List.mem_singleton.1 new
          exact last
    rw [entered]
    split
    · exact behind _ (rising.sublist (mergeOldestEntries_coords h)) fun c mem =>
        below c ((mergeOldestEntries_coords h).subset mem)
    · exact behind h rising below

/-- What entering a copy keeps, entering several keeps. -/
theorem entersAt_keeps {P : List HistoryEntry → Prop} {line : Nat} {h h' : List HistoryEntry}
    (entered : Relation.ReflTransGen (EntersAt line) h h')
    (keeps : ∀ h e, e.coord = line → P h → P (enterHistory h e)) (before : P h) : P h' := by
  induction entered with
  | refl => exact before
  | tail _ step ih =>
    obtain ⟨e, at', rfl⟩ := step
    exact keeps _ e at' ih

theorem enterHistory_ne_nil (h : List HistoryEntry) (e : HistoryEntry) : enterHistory h e ≠ [] := by
  rcases enterHistory_cases h e with ⟨older, newest, -, -, entered⟩ | ⟨-, entered⟩ <;> simp [entered]

/-- The entries that a cut leaves are the newest of the history, one at least. -/
theorem dropEntriesBelow_suffix (k : Nat) (h : List HistoryEntry) :
    dropEntriesBelow k h <:+ h ∧ (h ≠ [] → dropEntriesBelow k h ≠ []) := by
  fun_induction dropEntriesBelow k h with
  | case1 a b rest below ih => exact ⟨ih.1.trans (List.suffix_cons a _), fun _ => ih.2 nofun⟩
  | case2 => exact ⟨List.suffix_refl _, id⟩
  | case3 => exact ⟨List.suffix_refl _, id⟩

/-! ### H (R4) -/

section
variable {x y : Strand}

theorem StrandStep.high_eq (step : StrandStep x y) : y.high = x.high := by
  cases step with
  | line step => cases step <;> rfl
  | _ => rfl

theorem StrandSteps.high_eq (steps : StrandSteps x y) : y.high = x.high := by
  induction steps with
  | refl => rfl
  | tail _ step ih => exact step.high_eq.trans ih

/-- What every step of a strand keeps, every row of steps keeps. -/
theorem StrandSteps.keeps {P : Strand → Prop} (steps : StrandSteps x y)
    (keeps : ∀ {x y}, StrandStep x y → P x → P y) (before : P x) : P y := by
  induction steps with
  | refl => exact before
  | tail _ step ih => exact keeps step ih

/-! ### Capacities (R61, R126, R155, R157) -/

/-- The queues of a strand hold no more than they can. -/
def Strand.Fits (x : Strand) : Prop :=
  x.forecasts.length ≤ 24 ∧ x.schedule.length ≤ 4 ∧ x.history.length ≤ 5 ∧ x.defects.length ≤ 96

theorem Strand.Fits.step (step : StrandStep x y) (h : x.Fits) : y.Fits := by
  obtain ⟨forecasts, schedule, history, defects⟩ := h
  cases step with
  | retired => exact ⟨(List.dropWhile_suffix _).length_le.trans forecasts, schedule, history, defects⟩
  | forecast casting room => exact ⟨by simpa using room, schedule, history, defects⟩
  | line step =>
    cases step with
    | record r room => exact ⟨forecasts, schedule, history, by simpa using room⟩
    | _ => exact ⟨forecasts, schedule, history, defects⟩
  | triggered entries casting reached entered =>
    exact ⟨forecasts, (List.length_drop ▸ Nat.sub_le _ _).trans schedule,
      entersAt_keeps (P := fun h => h.length ≤ 5) entered (fun _ e _ fits => enterHistory_length_le fits e) history,
      defects⟩
  | cut k b casting =>
    exact ⟨forecasts, schedule, (dropEntriesBelow_suffix k _).1.length_le.trans history,
      (List.length_filterMap_le _ _).trans defects⟩
  | ended => exact ⟨Nat.zero_le _, Nat.zero_le _, Nat.zero_le _, Nat.zero_le _⟩
  | scheduled g i casting order room => exact ⟨forecasts, by simpa using room, history, defects⟩
  | unscheduled => exact ⟨forecasts, Nat.zero_le _, history, defects⟩
  | _ => exact ⟨forecasts, schedule, history, defects⟩

theorem Strand.Fits.change {c : Instr} (change : StrandChange c x y) (h : x.Fits) : y.Fits := by
  cases change with
  | steps steps => exact steps.keeps Strand.Fits.step h
  | raised phase casting top before steps => exact steps.keeps Strand.Fits.step h
  | started => exact ⟨Nat.zero_le _, Nat.zero_le _, by simp [startedStrand], Nat.zero_le _⟩
  | afresh => exact ⟨Nat.zero_le _, Nat.zero_le _, Nat.zero_le _, Nat.zero_le _⟩

/-! ### IDLE strands (R10, R123, R124, R155, R158) -/

theorem Strand.Settled.step (step : StrandStep x y) (h : x.Settled) : y.Settled := by
  obtain ⟨idle, casts⟩ := h
  cases step with
  | trigLow =>
    refine ⟨fun st => ?_, casts⟩
    obtain ⟨forecasts, schedule, history, billet, defects, -⟩ := idle st
    exact ⟨forecasts, schedule, history, billet, defects, rfl⟩
  | retired =>
    refine ⟨fun st => ?_, casts⟩
    obtain ⟨forecasts, rest⟩ := idle st
    exact ⟨by simp [retireForecasts, forecasts], rest⟩
  | forecast casting => exact ⟨fun st => absurd st casting, casts⟩
  | forecastLost f =>
    refine ⟨fun st => ?_, fun st => ⟨by simpa using (casts st).1, (casts st).2⟩⟩
    obtain ⟨forecasts, schedule, history, billet, rest⟩ := idle st
    exact ⟨forecasts, schedule, history, by simp [billet], rest⟩
  | line step holds =>
    have casting : x.state ≠ .idle := by
      intro st
      obtain ⟨-, -, history, -⟩ := idle st
      exact holds st history
    cases step with
    | record r room => exact ⟨fun st => absurd st casting, casts⟩
    | dropped full => exact ⟨fun st => absurd st casting, fun st => ⟨by simpa using (casts st).1, (casts st).2⟩⟩
    | flagged f g => exact ⟨fun st => absurd st casting, fun st => ⟨by simpa using (casts st).1, (casts st).2⟩⟩
  | triggered entries casting reached entered =>
    exact ⟨fun st => absurd st casting, fun st => ⟨(casts st).1,
      entersAt_keeps (P := fun h => h ≠ []) entered (fun h e _ _ => enterHistory_ne_nil h e) (casts st).2⟩⟩
  | cut k b casting =>
    exact ⟨fun st => absurd st casting, fun st => ⟨rfl, (dropEntriesBelow_suffix k _).2 (casts st).2⟩⟩
  | ended => exact ⟨fun _ => ⟨rfl, rfl, rfl, rfl, rfl, rfl⟩, fun st => absurd rfl st⟩
  | finishing casting => exact ⟨nofun, fun _ => casts (by rw [casting]; nofun)⟩
  | scheduled g i casting => exact ⟨fun st => absurd st casting, casts⟩
  | unscheduled =>
    refine ⟨fun st => ?_, casts⟩
    obtain ⟨forecasts, -, rest⟩ := idle st
    exact ⟨forecasts, rfl, rest⟩
  | _ => exact ⟨idle, casts⟩

theorem Strand.Settled.change {c : Instr} (change : StrandChange c x y) (h : x.Settled) : y.Settled := by
  cases change with
  | steps steps => exact steps.keeps Strand.Settled.step h
  | raised phase casting top before steps =>
    exact steps.keeps Strand.Settled.step ⟨fun st => absurd st casting, fun st => h.2 st⟩
  | started => exact ⟨nofun, fun _ => ⟨rfl, nofun⟩⟩
  | afresh => exact ⟨fun _ => ⟨rfl, rfl, rfl, rfl, rfl, rfl⟩, fun st => absurd rfl st⟩

/-! ### The order of the coordinates (R4, R61, R62, R155, R157) -/

/-- The due entries are those at the front of a schedule in order: the entries that are left lie beyond the line. -/
theorem drop_dueAt_beyond {line : Nat} {schedule : List ScheduleEntry}
    (rising : (schedule.map (·.coord)).Pairwise (· < ·)) :
    ∀ e ∈ schedule.drop (dueAt line schedule).length, line < e.coord := by
  induction schedule with
  | nil => nofun
  | cons a rest ih =>
    rw [List.map_cons, List.pairwise_cons] at rising
    by_cases due : a.coord ≤ line
    · simpa [dueAt, due] using ih rising.2
    · simp only [dueAt, due, decide_false, List.takeWhile_cons_of_neg, Bool.false_eq_true, not_false_eq_true,
        List.length_nil, List.drop_zero, List.mem_cons, forall_eq_or_imp]
      exact ⟨Nat.not_le.1 due, fun e mem => (Nat.not_le.1 due).trans (rising.1 _ (List.mem_map_of_mem mem))⟩

/-- A request in order comes after the last triggered line and after every entry of a schedule in order (R157). -/
theorem beyond_of_order {x : Strand} {g : Nat} (order : outOfOrder x g = false)
    (rising : (x.schedule.map (·.coord)).Pairwise (· < ·)) :
    x.lastTrigger < g ∧ ∀ a ∈ x.schedule.map (·.coord), a < g := by
  unfold outOfOrder at order
  rw [Bool.or_eq_false_iff, decide_eq_false_iff_not, Nat.not_le] at order
  refine ⟨order.1, ?_⟩
  rcases List.eq_nil_or_concat x.schedule with bare | ⟨older, newest, found⟩
  · rw [bare]
    nofun
  · have last := order.2
    rw [List.concat_eq_append] at found
    rw [found] at rising last ⊢
    simp only [List.getLast?_append, List.getLast?_singleton, Option.some_or, decide_eq_false_iff_not, Nat.not_le]
      at last
    intro a mem
    rw [List.map_append, List.pairwise_append] at rising
    rw [List.map_append] at mem
    rcases List.mem_append.1 mem with old | new
    · exact (rising.2.2 a old newest.coord (List.mem_singleton.2 rfl)).trans last
    · rw [List.mem_singleton.1 new]
      exact last

theorem Strand.Ordered.step (step : StrandStep x y) (h : x.Ordered) : y.Ordered := by
  have ⟨pitch, travel, high, bare, next, forecasts, expected, history, past, schedule, ahead⟩ := h
  cases step with
  | travelled t below =>
    exact ⟨pitch, below.elim id fun le => le.trans travel, high, bare, next, forecasts, expected, history, past,
      schedule, ahead⟩
  | retired =>
    have sub : (x.forecasts.dropWhile (forecastPast x.cfg x.high)).Sublist x.forecasts :=
      (List.dropWhile_suffix _).sublist
    exact ⟨pitch, travel, high, fun st => by simp [retireForecasts, bare st], next, forecasts.sublist sub,
      fun f mem => expected f (sub.subset mem), history, past, schedule, ahead⟩
  | forecast casting room =>
    refine ⟨pitch, travel, high, fun st => absurd st casting, next, ?_, fun f mem => ?_, history, past, schedule, ahead⟩
    · rw [List.pairwise_append]
      refine ⟨forecasts, List.pairwise_singleton _ _, fun a mem b last => ?_⟩
      rw [List.mem_singleton.1 last]
      exact expected a mem
    · rcases List.mem_append.1 mem with old | new
      · exact expected f old
      · exact (List.mem_singleton.1 new).le
  | line step => cases step <;> exact h
  | triggered entries casting reached entered =>
    have onward := next casting
    have ordered : HistoryUpTo x.nextTrigger entries :=
      entersAt_keeps (P := HistoryUpTo x.nextTrigger) entered (fun _ _ at' ordered => ordered.enter at')
        ⟨history, fun e mem => (past e mem).trans onward.le⟩
    exact ⟨pitch, travel, high, bare, fun _ => Nat.lt_add_of_pos_right pitch, forecasts, expected, ordered.1, ordered.2,
      schedule.sublist ((List.drop_sublist _ _).map _), drop_dueAt_beyond schedule⟩
  | cut k b casting =>
    have kept := (dropEntriesBelow_suffix k x.history).1.sublist
    exact ⟨pitch, travel, high, bare, next, forecasts, expected, history.sublist (kept.map _),
      fun e mem => past e (kept.subset mem), schedule, ahead⟩
  | ended =>
    exact ⟨pitch, travel, high, fun _ => rfl, fun st => absurd rfl st, .nil, nofun, .nil, nofun, .nil, nofun⟩
  | configured cfg idle positive =>
    refine ⟨positive, travel, high, bare, next, forecasts, fun f mem => ?_, history, past, schedule, ahead⟩
    exact nomatch bare idle ▸ mem
  | finishing casting =>
    exact ⟨pitch, travel, high, nofun, fun _ => next (by rw [casting]; nofun), forecasts, expected, history, past,
      schedule, ahead⟩
  | scheduled g i casting order room =>
    obtain ⟨beyond, behind⟩ := beyond_of_order order schedule
    refine ⟨pitch, travel, high, bare, next, forecasts, expected, history, past, ?_, fun e mem => ?_⟩
    · rw [List.map_append, List.pairwise_append]
      refine ⟨schedule, List.pairwise_singleton _ _, fun a mem b last => ?_⟩
      rw [List.mem_singleton.1 last]
      exact behind a mem
    · rcases List.mem_append.1 mem with old | new
      · exact ahead e old
      · rw [List.mem_singleton.1 new]
        exact beyond
  | unscheduled => exact ⟨pitch, travel, high, bare, next, forecasts, expected, history, past, .nil, nofun⟩
  | _ => exact h

theorem Strand.Ordered.change {c : Instr} (change : StrandChange c x y) (h : x.Ordered) : y.Ordered := by
  cases change with
  | steps steps => exact steps.keeps Strand.Ordered.step h
  | raised phase casting top before steps =>
    have ⟨pitch, travel, high, bare, next, forecasts, expected, history, past, schedule, ahead⟩ := h
    refine steps.keeps Strand.Ordered.step ⟨pitch, Nat.le_refl _, before, bare, next, forecasts, fun f mem => ?_, history,
      past, schedule, ahead⟩
    exact (expected f mem).trans (Nat.add_le_add_right (top.trans (Nat.le_succ _)) _)
  | started e b first =>
    obtain ⟨pitch, -⟩ := h
    refine ⟨pitch, Nat.le_refl _, Nat.zero_le _, nofun, fun _ => pitch, .nil, nofun, List.pairwise_singleton _ _,
      fun f mem => ?_, .nil, nofun⟩
    rw [List.mem_singleton.1 mem]
    exact first.le
  | afresh =>
    exact ⟨show 1 ≤ 20 by decide, Nat.le_refl _, Nat.zero_le _, fun _ => rfl, fun st => absurd rfl st, .nil, nofun, .nil, nofun,
      .nil, nofun⟩

/-! ### The close counters (R139, R178) -/

/-- Billets closed is the sum of the grade counters. -/
def Strand.ClosesBalance (x : Strand) : Prop := closeBalance x.stats = 0

theorem Strand.ClosesBalance.step (step : StrandStep x y) (h : x.ClosesBalance) : y.ClosesBalance := by
  cases step with
  | counted stats balanced => exact balanced h
  | ended stats balanced => exact balanced h
  | line step => exact (BilletSteps.balance (.single step)).trans h
  | _ => exact h

theorem Strand.ClosesBalance.change {c : Instr} (change : StrandChange c x y) (h : x.ClosesBalance) :
    y.ClosesBalance := by
  cases change with
  | steps steps => exact steps.keeps Strand.ClosesBalance.step h
  | raised phase casting top before steps => exact steps.keeps Strand.ClosesBalance.step h
  | started => exact h
  | afresh stats number zeroes balanced => exact balanced h

end

/-! ### The obligations -/

theorem exec_strandChange {c : Instr} {s t : State} (next : exec c s = .next t) (n : StrandId) :
    StrandChange c (s.strand n) (t.strand n) := by
  cases exec_does c s t next with
  | event acts => exact acts.strandChange n
  | idles => exact .refl
  | request _ acts => exact acts.strandChange n

/-- Settles O4: no step leaves anything of a cast in an IDLE strand, and a line leaves such a strand alone. -/
theorem idleStrandsHoldNothing : Obligations.IdleStrandsHoldNothing := by
  unfold Obligations.IdleStrandsHoldNothing
  intro c s t settled next n
  exact (settled n).change (exec_strandChange next n)

/-- Settles O7, step by step of a strand. -/
theorem strandCoordinatesStayOrdered : Obligations.StrandCoordinatesStayOrdered := by
  unfold Obligations.StrandCoordinatesStayOrdered
  intro c s t ordered next n
  exact (ordered n).change (exec_strandChange next n)

/-- Settles O9: a close raises two counters of the strand's sum, and a line's runs those of the channel's. -/
theorem countersAddUp : Obligations.CountersAddUp := by
  unfold Obligations.CountersAddUp
  intro c s t next
  refine ⟨fun balanced n => ?_, fun wide => exec_allChannels wideRunsCounted_invariant next wide⟩
  rw [← closeBalance_eq_zero_iff]
  exact Strand.ClosesBalance.change (exec_strandChange next n) ((closeBalance_eq_zero_iff s n).2 (balanced n))

/-- H stays, but for a forward count at H, which raises it by one where T is not beyond it, and for what brings it to
0. -/
theorem StrandChange.high {c : Instr} {x y : Strand} (change : StrandChange c x y) :
    (x.high ≤ y.high ∨ y.high = 0 ∧ zeroesTravel c = true) ∧ (x.travel ≤ x.high → y.high ≤ x.high + 1) := by
  cases change with
  | steps steps => exact ⟨.inl steps.high_eq.ge, fun _ => steps.high_eq.le.trans (Nat.le_succ _)⟩
  | raised phase casting top before steps =>
    have high := steps.high_eq
    dsimp only at high
    omega
  | started e b first zeroes => exact ⟨.inr ⟨rfl, zeroes⟩, fun _ => Nat.zero_le _⟩
  | afresh stats number zeroes => exact ⟨.inr ⟨rfl, zeroes⟩, fun _ => Nat.zero_le _⟩

/-- Settles O12: only a forward count at H raises H, and only a START_STRAND or a restart lowers it. -/
theorem highWaterNeverFalls : Obligations.HighWaterNeverFalls := by
  unfold Obligations.HighWaterNeverFalls
  intro c s t n next
  exact (exec_strandChange next n).high

end Sys2Proof.Machine

/-! What the recipe store, the report queue and the host link keep under every command (07, 08, 09). -/

namespace Sys2Proof.Machine

/-! ### The recipe store (R147 to R153) -/

section
variable {s t : State} {c : Instr}

theorem State.StoreSettled.of_store (h : s.StoreSettled) (same : t.store = s.store) : t.StoreSettled := by
  have slots : t.slot = s.slot := funext fun i => slot_eq_of_store same i
  unfold State.StoreSettled at h ⊢
  rw [same, slots]
  exact h

/-- What an operation leaves of the store, in a settled state: the slots agree with the operation in flight, and a
frozen slot stays. -/
def StoreKept (c : Instr) (s t : State) : Prop :=
  t.StoreSettled ∧ (s.store.op ≠ .clear → c ≠ .clearStore → ∀ i, (s.slot i).frozen = true → t.slot i = s.slot i)

theorem StoreKept.of_store (h : s.StoreSettled) (same : t.store = s.store) : StoreKept c s t :=
  ⟨h.of_store same, fun _ _ i _ => slot_eq_of_store same i⟩

/-- A slot and the operation in flight change, and no other slot. -/
theorem State.slot_modSlot_setOp (s : State) (i j : SlotId) (f : Slot → Slot) (op : StoreOp) :
    ((s.modSlot i f).setOp op).slot j = if j = i then f (s.slot i) else s.slot j := by
  rw [State.setOp_slot, State.modSlot]
  split
  · next e => rw [e, State.slot_putSlot_self]
  · next e => exact State.slot_putSlot_ne s _ e

theorem storeSettled_none_iff (free : s.store.op = .none) :
    s.StoreSettled ↔
      ∀ i, (s.slot i).content ≠ .writing ∧ ((s.slot i).frozen = true → (s.slot i).content.isValid = true) := by
  unfold State.StoreSettled
  rw [free]

theorem storeSettled_store_iff {j : SlotId} {r : Recipe} (flight : s.store.op = .store j r) :
    s.StoreSettled ↔
      (s.slot j).content = .writing ∧ (s.slot j).frozen = false ∧
        ∀ i, i ≠ j → (s.slot i).content ≠ .writing ∧ ((s.slot i).frozen = true → (s.slot i).content.isValid = true) := by
  unfold State.StoreSettled
  rw [flight]

theorem storeSettled_freeze_iff {j : SlotId} (flight : s.store.op = .freeze j) :
    s.StoreSettled ↔
      (s.slot j).content.isValid = true ∧ (s.slot j).frozen = false ∧
        ∀ i, (s.slot i).content ≠ .writing ∧ ((s.slot i).frozen = true → (s.slot i).content.isValid = true) := by
  unfold State.StoreSettled
  rw [flight]

theorem storeSettled_clear_iff (flight : s.store.op = .clear) :
    s.StoreSettled ↔ ∀ i, (s.slot i).content = .writing := by
  unfold State.StoreSettled
  rw [flight]

/-- A slot that was unfrozen may change; the frozen ones are others. -/
theorem frozen_kept {i : SlotId} (unfrozen : (s.slot i).frozen = false) (others : ∀ j, j ≠ i → t.slot j = s.slot j) :
    ∀ j, (s.slot j).frozen = true → t.slot j = s.slot j := fun j frozen =>
  others j fun e => by
    rw [e, unfrozen] at frozen
    exact nomatch frozen

theorem storeKept_beginStore (h : s.StoreSettled) {i : SlotId} (r : Recipe) (unfrozen : (s.slot i).frozen = false)
    (free : s.store.op = .none) :
    StoreKept c s ((s.modSlot i fun x => { x with content := .writing }).setOp (.store i r)) := by
  rw [storeSettled_none_iff free] at h
  refine ⟨(storeSettled_store_iff rfl).2 ⟨?_, ?_, fun j other => ?_⟩, fun _ _ => frozen_kept unfrozen fun j other => ?_⟩
  · rw [State.slot_modSlot_setOp, if_pos rfl]
  · rw [State.slot_modSlot_setOp, if_pos rfl]
    exact unfrozen
  · rw [State.slot_modSlot_setOp, if_neg other]
    exact h j
  · rw [State.slot_modSlot_setOp, if_neg other]

theorem storeKept_beginFreeze (h : s.StoreSettled) {i : SlotId} (valid : (s.slot i).content.isValid = true)
    (unfrozen : (s.slot i).frozen = false) (free : s.store.op = .none) : StoreKept c s (s.setOp (.freeze i)) := by
  rw [storeSettled_none_iff free] at h
  exact ⟨(storeSettled_freeze_iff rfl).2 ⟨valid, unfrozen, h⟩, fun _ _ _ _ => rfl⟩

theorem storeKept_beginClear : StoreKept .clearStore s ((s.modSlots fun x => { x with content := .writing }).setOp .clear) :=
  ⟨(storeSettled_clear_iff rfl).2 fun i => by rw [State.setOp_slot, State.slot_modSlots], fun _ other => absurd rfl other⟩

/-- A slot changes with no operation in flight afterwards: it must not be WRITING then, and VALID where frozen. -/
theorem storeKept_completed {i : SlotId} {f : Slot → Slot}
    (others : ∀ j, j ≠ i → (s.slot j).content ≠ .writing ∧ ((s.slot j).frozen = true → (s.slot j).content.isValid = true))
    (unfrozen : (s.slot i).frozen = false)
    (own : (f (s.slot i)).content ≠ .writing ∧
      ((f (s.slot i)).frozen = true → (f (s.slot i)).content.isValid = true)) :
    StoreKept c s ((s.modSlot i f).setOp .none) := by
  refine ⟨(storeSettled_none_iff rfl).2 fun j => ?_, fun _ _ => frozen_kept unfrozen fun j other => ?_⟩
  · rw [State.slot_modSlot_setOp]
    split
    · exact own
    · next other => exact others j other
  · rw [State.slot_modSlot_setOp, if_neg other]

theorem StoreKept.then_store {u : State} (h : StoreKept c s t) (same : u.store = t.store) : StoreKept c s u :=
  ⟨h.1.of_store same, fun flight other i frozen => (slot_eq_of_store same i).trans (h.2 flight other i frozen)⟩

theorem State.storeDone_store (s : State) (op slot : Nat) (result : ResultCode) (state revision : Nat) :
    (s.storeDone op slot result state revision).store = s.store := State.offer_store ..

theorem State.slotDone_store (s : State) (op : Nat) (i : SlotId) (result : ResultCode) :
    (s.slotDone op i result).store = s.store := State.offer_store ..

theorem storeKept_stored (h : s.StoreSettled) {i : SlotId} {r : Recipe} (verified : Bool)
    (flight : s.store.op = .store i r) : StoreKept c s ((s.modSlot i (storedSlot r verified)).setOp .none) := by
  rw [storeSettled_store_iff flight] at h
  obtain ⟨-, unfrozen, others⟩ := h
  refine storeKept_completed others unfrozen ?_
  unfold storedSlot
  split
  · exact ⟨nofun, fun _ => rfl⟩
  · exact ⟨nofun, fun frozen => absurd (unfrozen.symm.trans frozen) nofun⟩

theorem storeKept_frozen (h : s.StoreSettled) {i : SlotId} (verified : Bool) (flight : s.store.op = .freeze i) :
    StoreKept c s ((s.modSlot i fun x => { x with frozen := x.frozen || verified }).setOp .none) := by
  rw [storeSettled_freeze_iff flight] at h
  obtain ⟨valid, unfrozen, all⟩ := h
  exact storeKept_completed (fun j _ => all j) unfrozen ⟨(all i).1, fun _ => valid⟩

theorem storeKept_cleared (flight : s.store.op = .clear) :
    StoreKept c s ((s.modSlots fun _ => clearedSlot).setOp .none) := by
  refine ⟨(storeSettled_none_iff rfl).2 fun i => ?_, fun other => absurd flight other⟩
  rw [State.setOp_slot, State.slot_modSlots]
  exact ⟨nofun, nofun⟩

/-- A restart resolves the operation in flight (R153). -/
theorem storeKept_resolved (h : s.StoreSettled) (resolved : t.store = resolveStore s.store) : StoreKept c s t := by
  have change : ∀ (i : SlotId) (f : Slot → Slot), t.store = ((s.modSlot i f).setOp .none).store → _ :=
    fun i f same kept => StoreKept.then_store (c := c) (s := s) (t := (s.modSlot i f).setOp .none) kept same
  cases flight : s.store.op with
  | none =>
    rw [resolveStore, flight] at resolved
    exact .of_store h resolved
  | store i r =>
    rw [resolveStore, flight] at resolved
    rw [storeSettled_store_iff flight] at h
    obtain ⟨-, unfrozen, others⟩ := h
    exact change i (fun x => { x with content := .empty, frozen := false }) resolved
      (storeKept_completed others unfrozen ⟨nofun, nofun⟩)
  | freeze i =>
    rw [resolveStore, flight] at resolved
    rw [storeSettled_freeze_iff flight] at h
    obtain ⟨valid, unfrozen, all⟩ := h
    exact change i (fun x => { x with frozen := false }) resolved
      (storeKept_completed (fun j _ => all j) unfrozen ⟨(all i).1, nofun⟩)
  | clear =>
    rw [resolveStore, flight] at resolved
    refine StoreKept.then_store (storeKept_cleared flight) (resolved.trans ?_)
    have same : Vector.replicate 16 clearedSlot = Vector.ofFn fun _ => clearedSlot := by
      ext i lt
      simp
    exact congrArg (Store.mk · .none) same

theorem State.clearCounts_store (s : State) (cause : RestartCause) : (s.clearCounts cause).store = s.store := by
  unfold State.clearCounts
  split <;> rfl

theorem Acts.storeKept (acts : Acts c s t) (h : s.StoreSettled) : StoreKept c s t := by
  cases acts with
  | count n input => exact .of_store h (StrandKept.encoderCount n s input).store_eq
  | stroke n => exact .of_store h ((StrandKept.modStrand n s _).trans (.mouldStroke n _)).store_eq
  | cutEdge n => exact .of_store h ((StrandKept.modStrand n s _).trans (.cut n _)).store_eq
  | cutRequest n => exact .of_store h (StrandKept.cut n s).store_eq
  | frame m f => exact .of_store h ((LineKept.modRx m s _).trans (.classify m _ f)).store_eq
  | frameFails m f => exact .of_store h ((LineKept.modRx m s _).trans (.framingFailure m _)).store_eq
  | gap m inHeader => exact .of_store h ((LineKept.modRx m s _).trans (.framingFailure m _)).store_eq
  | waitExpires m k => exact .of_store h (LineKept.settleMissed m s).store_eq
  | hostFrame f crc =>
    unfold State.acceptFrame
    split <;> exact .of_store h rfl
  | frameAbandoned c rx =>
    unfold State.abandonFrame
    split <;> exact .of_store h rfl
  | start n i revision r =>
    refine .of_store h ?_
    rw [State.startStrand_eq]
    exact State.offer_store ..
  | finish n => exact .of_store h (State.offer_store ..)
  | stop n => exact .of_store h (StrandKept.stopStrand n s _).store_eq
  | release m => exact .of_store h (LineKept.releaseChannel m s).store_eq
  | beginStore i r _ unfrozen free => exact storeKept_beginStore h r unfrozen free
  | beginFreeze i _ valid unfrozen free => exact storeKept_beginFreeze h valid unfrozen free
  | beginClear => exact storeKept_beginClear
  | stored i r verified _ flight => exact (storeKept_stored h verified flight).then_store (State.slotDone_store ..)
  | frozen i verified _ flight => exact (storeKept_frozen h verified flight).then_store (State.slotDone_store ..)
  | cleared _ flight => exact (storeKept_cleared flight).then_store (State.storeDone_store ..)
  | hold c f cause => exact storeKept_resolved h (State.clearCounts_store _ _)
  | released pins => exact .of_store h (State.clearCounts_store _ _)
  | _ => exact .of_store h rfl

end

/-- Settles O11: the operations that change a slot change one that is not frozen, but for a CLEAR. -/
theorem storeSlotsFitTheOperation : Obligations.StoreSlotsFitTheOperation := by
  unfold Obligations.StoreSlotsFitTheOperation
  intro c s t settled next
  cases exec_does c s t next with
  | event acts => exact acts.storeKept settled
  | idles => exact StoreKept.of_store (c := c) settled rfl
  | @request f body u _ acts =>
    exact StoreKept.then_store (Acts.storeKept acts (s := (s.take f).reply f body) (settled.of_store rfl)) rfl

end Sys2Proof.Machine

/-! The report queue and the host link under every command (07, R140, R141; 09, R165, R166, R168). -/

namespace Sys2Proof.Machine

/-! ### The report queue -/

section
variable (s : State) (n : StrandId)

theorem foldl_rq {f : State → ChannelId → State} (ms : List ChannelId) (kept : ∀ u m, LineKept m u (f u m)) :
    (ms.foldl f s).rq = s.rq :=
  foldl_keeps (P := fun u : State => u.rq = s.rq) ms s rfl fun u m _ hu => (kept u m).rq_eq.trans hu

theorem State.eachChannel_rq {f : ChannelId → State → State} (kept : ∀ u m, LineKept m u (f m u)) :
    (s.eachChannel n f).rq = s.rq := foldl_rq (s.drawn _) _ fun u m => kept u m

theorem State.countClose_rq (g : Grade) (closing : List DefectRecord) : (s.countClose n g closing).rq = s.rq := by
  rw [State.countClose_eq]
  rfl

theorem State.closeBillet_rq (tail : Nat) (stopped : Bool) (closing : List DefectRecord) {b : OpenBillet}
    (opened : (s.strand n).billet = some b) :
    (s.closeBillet n tail stopped closing).rq =
      (if s.rq.length < 8 then s.rq else s.rq.drop 1) ++
        [if s.rq.length < 8 then s.reportOf n b tail stopped closing
          else withPriorLoss (s.reportOf n b tail stopped closing)] := by
  unfold State.closeBillet
  rw [opened]
  dsimp only
  rw [State.pushReport_rq, State.countClose_rq, State.modStrand_eq, State.putStrand_rq,
    foldl_rq _ _ fun u m => LineKept.takeCoverage m u _ _]

theorem State.flushed_rq : (s.flushed n).rq = s.rq :=
  (State.eachChannel_rq _ n fun u m => LineKept.flush m u).trans (foldl_rq s _ fun u m => LineKept.abandon m u)

theorem State.stopStrand_rq (reason : StrandReason) : (s.stopStrand n reason).rq = (s.stopClosed n).rq := by
  rw [State.stopStrand_eq, State.strandToIdle, State.strandNotice, State.offer_rq, State.modStrand_eq,
    State.putStrand_rq, State.eachChannel_rq _ n fun u m => LineKept.channelToIdle m u]

theorem State.parted_rq (k : Nat) : (s.parted n k).rq = s.rq := by
  unfold State.parted
  rw [State.modStrand_eq, State.putStrand_rq,
    foldl_rq (f := fun t m => t.splitTracks m k) _ _ fun u m => LineKept.splitTracks m u k]
  rfl

theorem State.acceptCut_rq (k : Nat) : (s.acceptCut n k).rq = (s.cutClosed n k).rq := by
  have closed : (s.closeAtCut n k).rq = (s.cutClosed n k).rq := by
    rw [State.closeAtCut_eq, State.modStrand_eq, State.putStrand_rq]
  unfold State.acceptCut
  dsimp only
  split
  · rw [State.endFinishing_eq, State.strandToIdle, State.strandNotice, State.offer_rq]
    rw [State.modStrand_eq, State.putStrand_rq, State.eachChannel_rq _ n fun u m => LineKept.channelToIdle m u]
    unfold State.tracksDiscarded
    rw [foldl_rq (f := fun t m => (t.abandon m).modTt m freeTable) _ _ fun u m =>
      (LineKept.abandon m u).trans (.modTt m _ freeTable)]
    exact closed
  all_goals
    unfold State.openBillet
    rw [State.modStrand_eq, State.putStrand_rq]
    exact closed

theorem State.applyEntry_rq (line : Nat) (before : Option Recipe) (e : ScheduleEntry) :
    (s.applyEntry n line before e).rq = s.rq := by
  unfold State.applyEntry
  dsimp only
  split
  all_goals rw [State.offer_rq]
  rfl

theorem State.triggered_rq : (s.triggered n).rq = s.rq :=
  foldl_keeps (P := fun u : State => u.rq = s.rq) _ _ rfl fun u e _ hu => (State.applyEntry_rq u n _ _ e).trans hu

theorem State.lineTrigger_rq : (s.lineTrigger n).rq = s.rq := by
  rw [State.lineTrigger_eq]
  exact (State.eachChannel_rq _ n fun u m => LineKept.takeTrigger m u _ _ _).trans (State.triggered_rq s n)

/-! ### Reports queued (R140) -/

theorem State.closeBillet_rq_le (tail : Nat) (stopped : Bool) (closing : List DefectRecord) (fits : s.rq.length ≤ 8) :
    (s.closeBillet n tail stopped closing).rq.length ≤ 8 := by
  cases opened : (s.strand n).billet with
  | none =>
    rw [State.closeBillet_of_none s n tail stopped closing opened]
    exact fits
  | some b =>
    rw [State.closeBillet_rq s n tail stopped closing opened, List.length_append, List.length_singleton]
    split
    · omega
    · rw [List.length_drop]
      omega

theorem State.stopStrand_rq_le (reason : StrandReason) (fits : s.rq.length ≤ 8) :
    (s.stopStrand n reason).rq.length ≤ 8 := by
  rw [State.stopStrand_rq]
  exact State.closeBillet_rq_le _ n _ _ _ ((State.flushed_rq s n).symm ▸ fits)

theorem State.cut_rq_le (fits : s.rq.length ≤ 8) : (s.cut n).rq.length ≤ 8 := by
  unfold State.cut
  split
  iterate 3 exact fits
  rw [State.acceptCut_rq]
  exact State.closeBillet_rq_le _ n _ _ _ ((State.parted_rq s n _).symm ▸ fits)

theorem State.encoderCount_rq_le (input : EncInput) (fits : s.rq.length ≤ 8) :
    (s.encoderCount n input).rq.length ≤ 8 := by
  have forward : ∀ u : State, u.rq.length ≤ 8 → (u.forwardCount n).rq.length ≤ 8 := by
    intro u fits
    unfold State.forwardCount State.highRaised
    dsimp only
    split
    · exact State.stopStrand_rq_le u n _ fits
    split
    · split
      · rw [State.lineTrigger_rq]
        exact fits
      · exact fits
    · exact fits
  unfold State.encoderCount
  dsimp only
  split
  · exact fits
  all_goals
    split
    · exact forward _ fits
    · unfold State.reverseCount
      split <;> exact fits

end

/-! ### The host link -/

section
variable {s t : State} {c : Instr}

/-- The report queue, the frame buffer and the output queue hold no more than they can. -/
def State.QueuesFit (s : State) : Prop :=
  s.rq.length ≤ 8 ∧ s.hli.buffer.length ≤ 4 ∧ s.hli.output.length ≤ 16

theorem State.QueuesFit.grows (h : s.QueuesFit) (grows : LinkGrows s t) (reports : t.rq.length ≤ 8) : t.QueuesFit := by
  obtain ⟨-, buffer, output⟩ := h
  obtain ⟨⟨notices, link, room, -⟩, -⟩ := grows
  refine ⟨reports, by rw [link]; exact buffer, ?_⟩
  rw [link]
  rcases room with rfl | room
  · simpa using output
  · exact room.trans (by decide)

theorem State.QueuesFit.of_eq (h : s.QueuesFit) (buffer : t.hli.buffer = s.hli.buffer)
    (output : t.hli.output = s.hli.output) (reports : t.rq = s.rq) : t.QueuesFit := by
  unfold State.QueuesFit
  rw [buffer, output, reports]
  exact h

theorem State.QueuesFit.line {m : ChannelId} (h : s.QueuesFit) (kept : LineKept m s t) : t.QueuesFit :=
  h.grows kept.grows (by rw [kept.rq_eq]; exact h.1)

theorem State.QueuesFit.offer (h : s.QueuesFit) (k : NoticeKind) (body : List Byte) : (s.offer k body).QueuesFit :=
  h.grows (.offer s k body) (by rw [State.offer_rq]; exact h.1)

theorem State.QueuesFit.strandNotice (h : s.QueuesFit) (n : StrandId) (reason : StrandReason) :
    (s.strandNotice n reason).QueuesFit := h.offer _ _

theorem State.QueuesFit.slotDone (h : s.QueuesFit) (op : Nat) (i : SlotId) (result : ResultCode) :
    (s.slotDone op i result).QueuesFit := h.offer _ _

theorem State.QueuesFit.storeDone (h : s.QueuesFit) (op slot : Nat) (result : ResultCode) (state revision : Nat) :
    (s.storeDone op slot result state revision).QueuesFit := h.offer _ _

theorem State.QueuesFit.setOp (h : s.QueuesFit) (op : StoreOp) : (s.setOp op).QueuesFit :=
  h.of_eq (by rw [State.setOp_hli]) (by rw [State.setOp_hli]) (State.setOp_rq s op)

theorem State.QueuesFit.modSlot (h : s.QueuesFit) (i : SlotId) (f : Slot → Slot) : (s.modSlot i f).QueuesFit :=
  h.of_eq rfl rfl rfl

theorem State.QueuesFit.modSlots (h : s.QueuesFit) (f : Slot → Slot) : (s.modSlots f).QueuesFit :=
  h.of_eq (by rw [State.modSlots_hli]) (by rw [State.modSlots_hli]) (State.modSlots_rq s f)

theorem State.clearCounts_hli (s : State) (cause : RestartCause) : (s.clearCounts cause).hli = s.hli := by
  unfold State.clearCounts
  split <;> rfl

theorem Acts.queuesFit (acts : Acts c s t) (h : s.QueuesFit) : t.QueuesFit := by
  have ⟨reports, buffer, output⟩ := h
  cases acts with
  | count n input => exact h.grows (StrandKept.encoderCount n s input).grows (State.encoderCount_rq_le s n input reports)
  | stroke n =>
    unfold State.mouldStroke
    dsimp only
    split <;> exact h.of_eq rfl rfl rfl
  | cutEdge n =>
    exact h.grows ((StrandKept.modStrand n s _).trans (.cut n _)).grows (State.cut_rq_le (s.modStrand n _) n reports)
  | cutRequest n => exact h.grows (StrandKept.cut n s).grows (State.cut_rq_le s n reports)
  | frame m f => exact h.line ((LineKept.modRx m s _).trans (.classify m _ f))
  | frameFails m f => exact h.line ((LineKept.modRx m s _).trans (.framingFailure m _))
  | gap m inHeader => exact h.line ((LineKept.modRx m s _).trans (.framingFailure m _))
  | waitExpires m k => exact h.line (.settleMissed m s)
  | hostFrame f crc =>
    unfold State.acceptFrame
    split
    · next room =>
        refine ⟨reports, ?_, output⟩
        show (s.hli.buffer ++ [f]).length ≤ 4
        rw [List.length_append]
        exact room
    · exact h.of_eq rfl rfl rfl
  | frameAbandoned c rx =>
    unfold State.abandonFrame
    split
    · exact h
    · exact ⟨reports, buffer, output⟩
  | sent => exact ⟨reports, buffer, (List.length_drop ▸ Nat.sub_le _ _).trans output⟩
  | takeReport => exact ⟨(List.length_drop ▸ Nat.sub_le _ _).trans reports, buffer, output⟩
  | start n i revision r =>
    rw [State.startStrand_eq]
    refine State.QueuesFit.strandNotice ?_ n _
    exact h.of_eq rfl rfl rfl
  | finish n => exact State.QueuesFit.strandNotice (s := s.modStrand n _) (h.of_eq rfl rfl rfl) n _
  | stop n => exact h.grows (StrandKept.stopStrand n s _).grows (State.stopStrand_rq_le s n _ reports)
  | release m => exact h.line (.releaseChannel m s)
  | beginStore i r => exact (h.modSlot i _).setOp _
  | beginFreeze i => exact h.setOp _
  | beginClear => exact (h.modSlots _).setOp _
  | stored i r verified => exact ((h.modSlot i _).setOp _).slotDone 1 i _
  | frozen i verified => exact ((h.modSlot i _).setOp _).slotDone 2 i _
  | cleared => exact ((h.modSlots _).setOp _).storeDone 3 0xFF _ _ _
  | hold c f cause =>
    have link := State.clearCounts_hli (s.modSup f).blocksInitial cause
    refine State.QueuesFit.of_eq (s := (s.modSup f).blocksInitial) ⟨Nat.zero_le _, Nat.zero_le _, Nat.zero_le _⟩ ?_ ?_
      (State.clearCounts_rq _ _)
    all_goals rw [link]
  | released pins =>
    have link := State.clearCounts_hli s (restartCause s.sup)
    have queue := State.clearCounts_rq s (restartCause s.sup)
    refine ⟨?_, ?_, show 1 ≤ 16 by decide⟩
    · show (s.clearCounts (restartCause s.sup)).rq.length ≤ 8
      rwa [queue]
    · show (s.clearCounts (restartCause s.sup)).hli.buffer.length ≤ 4
      rwa [link]
  | _ => exact h.of_eq rfl rfl rfl

end

/-- Settles O3: the strands' queues by the steps of a strand, the coverage logs by those of a channel, and the link
because a reply finds a free entry and a notice leaves one. -/
theorem queuesKeepTheirCapacity : Obligations.QueuesKeepTheirCapacity := by
  unfold Obligations.QueuesKeepTheirCapacity
  intro c s t ⟨strands, logs, reports, buffer, output⟩ next
  have fits : s.QueuesFit := ⟨reports, buffer, output⟩
  have strands' : ∀ n, (t.strand n).Fits := fun n => Strand.Fits.change (exec_strandChange next n) (strands n)
  refine ⟨strands', exec_allChannels logFits_invariant next logs, ?_⟩
  cases exec_does c s t next with
  | event acts => exact acts.queuesFit fits
  | idles => exact fits
  | @request f body u room acts =>
    refine acts.queuesFit ⟨reports, ?_, ?_⟩
    · exact (List.length_drop ▸ Nat.sub_le _ _).trans buffer
    · show (s.hli.output ++ [_]).length ≤ 16
      rw [List.length_append]
      exact room

end Sys2Proof.Machine

/-! One event handed to the channels of a strand, seen from one of them (01, 05, 06): before and after its own turn the
others leave it as it is. And what a flush, an abandoned await and the going IDLE leave of a channel. -/

namespace Sys2Proof.Machine

/-! ### The turns of the other channels -/

/-- Between `s` and `t` other channels had their turn: channel m and every configuration stand, of the strands only the
billets' flags, the pending records and the counters may have moved, and the link took notices. -/
structure Aside (m : ChannelId) (s t : State) : Prop where
  channel : t.channel m = s.channel m
  strand (n : StrandId) : t.strand n =
    { s.strand n with billet := (t.strand n).billet, defects := (t.strand n).defects, stats := (t.strand n).stats }
  store : t.store = s.store
  grows : LinkGrows s t

theorem Aside.refl (m : ChannelId) (s : State) : Aside m s s := ⟨rfl, fun _ => rfl, rfl, .refl s⟩

theorem Aside.trans {m : ChannelId} {s t u : State} (a : Aside m s t) (b : Aside m t u) : Aside m s u where
  channel := b.channel.trans a.channel
  strand n := by rw [b.strand n, a.strand n]
  store := b.store.trans a.store
  grows := a.grows.trans b.grows

theorem Aside.of_line {m j : ChannelId} {s t : State} (kept : LineKept j s t) (other : m ≠ j) : Aside m s t where
  channel := by
    obtain ⟨others, -⟩ := kept
    exact others m other
  strand := kept.strand_eq
  store := kept.store_eq
  grows := kept.grows

theorem Aside.foldl {m : ChannelId} {f : State → ChannelId → State} (ms : List ChannelId) (s : State)
    (kept : ∀ u j, LineKept j u (f u j)) (others : m ∉ ms) : Aside m s (ms.foldl f s) :=
  foldl_keeps (P := Aside m s) ms s (.refl m s) fun u j mem hu =>
    hu.trans (.of_line (kept u j) fun e => others (e ▸ mem))

/-- Of an event handed to several channels, each its own turn: before it and behind it the others have theirs. -/
theorem foldl_turn {m : ChannelId} {f : State → ChannelId → State} {ms : List ChannelId} (nodup : ms.Nodup)
    (mem : m ∈ ms) (kept : ∀ u j, LineKept j u (f u j)) (s : State) :
    ∃ u, Aside m s u ∧ Aside m (f u m) (ms.foldl f s) := by
  obtain ⟨before, after, rfl⟩ := List.append_of_mem mem
  rw [List.nodup_append] at nodup
  obtain ⟨-, behind, apart⟩ := nodup
  refine ⟨before.foldl f s, .foldl before s kept fun own => apart m own m List.mem_cons_self rfl, ?_⟩
  rw [List.foldl_append, List.foldl_cons]
  exact .foldl after _ kept (List.nodup_cons.1 behind).1

theorem Aside.drawn (m : ChannelId) (s : State) (k : Nat) : Aside m s (s.drawn k) :=
  ⟨rfl, fun _ => rfl, rfl, .of_eq rfl rfl⟩

theorem State.eachChannel_turn {m : ChannelId} {n : StrandId} {f : ChannelId → State → State} {s : State}
    (mem : m ∈ s.channelsOf n) (kept : ∀ u j, LineKept j u (f j u)) :
    ∃ u, Aside m s u ∧ Aside m (f m u) (s.eachChannel n f) := by
  obtain ⟨u, before, after⟩ := foldl_turn (f := fun u j => f j u) (s.openOrder_nodup n)
    ((s.openOrder_perm n).mem_iff.2 mem) (fun u j => kept u j) s.drawn
  exact ⟨u, (Aside.drawn m s _).trans before, after⟩

/-! ### Records of a channel (R108, R109) -/

/-- What the emission of records adds to a counter of the channel (R109). -/
def emissionCount (minMm : Nat) (rs : List DefectRecord) (k : ChannelCounter) : Counter :=
  (if k = .recordsEmitted then BitVec.ofNat 32 (rs.filter (longEnough minMm)).length else 0) +
    if k = .tooShort then BitVec.ofNat 32 (rs.filter fun r => !longEnough minMm r).length else 0

theorem State.channelCount_countEmission (s : State) (m : ChannelId) (minMm : Nat) (rs : List DefectRecord)
    (k : ChannelCounter) :
    (s.countEmission m minMm rs).channelCount m k = s.channelCount m k + emissionCount minMm rs k := by
  unfold State.countEmission emissionCount
  rw [State.channelCount_raiseChannel, State.channelCount_raiseChannel]
  ac_rfl

theorem State.channelCount_of_channels {s t : State} (same : t.channels = s.channels) (m : ChannelId)
    (k : ChannelCounter) : t.channelCount m k = s.channelCount m k := by
  unfold State.channelCount
  rw [channel_eq_of_channels same]

theorem State.receive_channels (s : State) (n : StrandId) (r : DefectRecord) : (s.receive n r).channels = s.channels := by
  unfold State.receive
  split <;> rfl

theorem State.receiveAll_channels (s : State) (n : StrandId) (rs : List DefectRecord) :
    (s.receiveAll n rs).channels = s.channels :=
  foldl_keeps (P := fun u : State => u.channels = s.channels) rs s rfl fun u r _ hu =>
    (State.receive_channels u n r).trans hu

theorem State.channelCount_emit (s : State) (m : ChannelId) (minMm : Nat) (rs : List DefectRecord) (k : ChannelCounter) :
    (s.emit m minMm rs).channelCount m k = s.channelCount m k + emissionCount minMm rs k := by
  rw [State.emit, State.channelCount_of_channels (State.receiveAll_channels ..), State.channelCount_countEmission]

/-- The records that a flush of channel m forms (R111). -/
def State.flushRecords (s : State) (m : ChannelId) : List DefectRecord :=
  (flushedTracks (s.channel m).tt).map fun t => { s.recordOf m t with truncated := true }

theorem State.flush_eq (s : State) (m : ChannelId) :
    s.flush m = (s.modTt m freeTable).emit m (lastMinDefect (s.channel m).tt) (s.flushRecords m) := rfl

theorem State.channelCount_flush (s : State) (m : ChannelId) (k : ChannelCounter) :
    (s.flush m).channelCount m k =
      s.channelCount m k + emissionCount (lastMinDefect (s.channel m).tt) (s.flushRecords m) k := by
  rw [State.flush_eq, State.channelCount_emit]
  simp [State.channelCount, State.modTt_eq]

/-! ### The same records, as the statements write them -/

theorem lastMinDefect_eq (tt : TrackTable) : lastMinDefect tt = tt.minDefectMm := by
  unfold lastMinDefect TrackTable.minDefectMm
  cases tt.lastLine <;> rfl

theorem longOnes_eq (minMm : Nat) (rs : List DefectRecord) : longOnes minMm rs = rs.filter (longEnough minMm) := rfl

/-- The slots of a table one by one are the slots in their list. -/
theorem filterMap_allSlots {α β : Type} (v : Vector α 16) (f : α → Option β) :
    (allSlots.filterMap fun i => f v[i]) = v.toList.filterMap f := by
  have slots : v.toList = allSlots.map fun i => v[i] := by
    apply List.ext_getElem
    · simp [allSlots]
    · intro i lt _
      simp only [List.getElem_map, Vector.getElem_toList]
      have small : i < 16 := by simpa using lt
      interval_cases i <;> rfl
  rw [slots, List.filterMap_map]
  rfl

theorem flushedTracks_eq (tt : TrackTable) : flushedTracks tt = tt.followed := by
  unfold flushedTracks TrackTable.followed
  rw [filterMap_allSlots tt.slots fun slot => slot.filter fun t => t.state != .tentative]
  rw [List.filter_filterMap]
  rfl

theorem State.flushRecords_eq (s : State) (m : ChannelId) :
    s.flushRecords m = (s.channel m).flushed m (s.strandOf m).cfg := by
  unfold State.flushRecords Channel.flushed
  rw [flushedTracks_eq]
  rfl

theorem filter_not_length {α : Type} (p : α → Bool) (l : List α) :
    (l.filter fun a => !p a).length = l.length - (l.filter p).length := by
  induction l with
  | nil => rfl
  | cons a l ih =>
    have := List.length_filter_le p l
    cases own : p a with
    | true => simp [own, ih]
    | false =>
      simp only [own, Bool.not_false, List.filter_cons, if_true, List.length_cons, ih]
      simp only [Bool.false_eq_true, if_false]
      omega

/-- The counters after an emission, as the statements write them (R109). -/
theorem Channel.emitted_of_counts {c d : Channel} {formed : List DefectRecord}
    (counts : ∀ k, d.stats[channelIndex k] = c.stats[channelIndex k] + emissionCount (lastMinDefect c.tt) formed k) :
    c.Emitted d formed := by
  intro k
  rw [counts k]
  unfold emissionCount
  rw [filter_not_length, lastMinDefect_eq, ← longOnes_eq]
  by_cases emitted : k = .recordsEmitted
  · simp [emitted]
  · simp [emitted]

end Sys2Proof.Machine

/-! What the end of a cast leaves of a channel (R14, R35, R87, R133). -/

namespace Sys2Proof.Machine

/-! ### Steps of the end, for their channel -/

section
variable (s : State) (m : ChannelId)

/-- An await is abandoned with no last expected tag; a QUIET receiver stays as it is (R35). -/
def Receiver.abandoned (rx : Receiver) : Receiver :=
  match rx.await with
  | .quiet => rx
  | .awaiting _ _ _ => { rx with await := .quiet, timer := none, lastExpected := none }

theorem Receiver.abandoned_fields (rx : Receiver) :
    rx.abandoned.await = .quiet ∧ rx.abandoned.framing = rx.framing ∧ rx.abandoned.tagOffset = rx.tagOffset ∧
      rx.abandoned.lastExpected = if rx.await = .quiet then rx.lastExpected else none := by
  unfold Receiver.abandoned
  split
  · next quiet => exact ⟨quiet, rfl, rfl, (if_pos quiet).symm⟩
  · next awaits => exact ⟨rfl, rfl, rfl, (if_neg (by rw [awaits]; nofun)).symm⟩

theorem State.abandon_channel :
    (s.abandon m).channel m = { s.channel m with rx := (s.channel m).rx.abandoned } := by
  unfold State.abandon Receiver.abandoned
  cases awaits : (s.channel m).rx.await with
  | quiet => simp only
  | awaiting k line expected =>
    simp only [State.endAwait, State.modRx_eq, State.channel_putChannel_self]

theorem State.takeCoverage_channel (pitch tail : Nat) :
    (s.takeCoverage pitch tail m).channel m =
      { s.channel m with lp := { (s.channel m).lp with log := coverageAbove pitch tail (s.channel m).lp.log } } := by
  rw [State.takeCoverage, State.modLp_eq, State.channel_putChannel_self]

theorem State.channelToIdle_channel_self :
    (s.channelToIdle m).channel m = { s.channel m with lp := LineProcessor.initial .idle } := by
  rw [channel_eq_of_channels (s.channelToIdle_channel m), State.channel_putChannel_self]

theorem State.closeBillet_channels_eq (n : StrandId) (tail : Nat) (stopped : Bool) (closing : List DefectRecord)
    {b : OpenBillet} (opened : (s.strand n).billet = some b) :
    (s.closeBillet n tail stopped closing).channels =
      ((s.channelsOf n).foldl (fun t j => t.takeCoverage (s.strand n).cfg.countsPerLine tail j) s).channels := by
  unfold State.closeBillet
  rw [opened]
  dsimp only
  rw [State.pushReport_channels, State.countClose_channels]
  rfl

/-- A close takes the lines below the tail out of the log of each of the strand's channels (R130). -/
theorem State.closeBillet_channel {n : StrandId} (mem : m ∈ s.channelsOf n) (tail : Nat) (stopped : Bool)
    (closing : List DefectRecord) {b : OpenBillet} (opened : (s.strand n).billet = some b) :
    (s.closeBillet n tail stopped closing).channel m =
      { s.channel m with
        lp :=
          { (s.channel m).lp with
            log := coverageAbove (s.strand n).cfg.countsPerLine tail (s.channel m).lp.log } } := by
  rw [channel_eq_of_channels (s.closeBillet_channels_eq n tail stopped closing opened)]
  obtain ⟨u, before, after⟩ := foldl_turn
    (f := fun t j => t.takeCoverage (s.strand n).cfg.countsPerLine tail j) (s.channelsOf_nodup n) mem
    (fun u j => LineKept.takeCoverage j u _ _) s
  rw [after.channel, State.takeCoverage_channel, before.channel]

/-- A close changes nothing of a channel but its log. -/
theorem State.closeBillet_channel_but_log {n : StrandId} (mem : m ∈ s.channelsOf n) (tail : Nat) (stopped : Bool)
    (closing : List DefectRecord) :
    ∃ log, (s.closeBillet n tail stopped closing).channel m =
      { s.channel m with lp := { (s.channel m).lp with log := log } } := by
  cases opened : (s.strand n).billet with
  | none => exact ⟨_, by rw [State.closeBillet_of_none s n tail stopped closing opened]⟩
  | some b => exact ⟨_, State.closeBillet_channel s m mem tail stopped closing opened⟩

theorem StrandKept.channelsOf_eq {n : StrandId} {s t : State} (kept : StrandKept n s t) :
    t.channelsOf n = s.channelsOf n := by
  unfold State.channelsOf
  refine List.filter_congr fun m _ => ?_
  rw [kept.cfg_eq m]

end

/-! ### The notice of a lock left (R87) -/

theorem LocksLeft.of_turn {s s' t : State} {n : StrandId} {m : ChannelId}
    (on : (s'.channel m).cfg.strand = n) (state : (s'.channel m).lp.state = (s.channel m).lp.state)
    (coord : (s'.strand n).lastTrigger = (s.strand n).lastTrigger) (before : LinkGrows s s')
    (after : LinkGrows (s'.channelToIdle m) t) :
    ((∃ left, (s.channel m).lp.state = .softLock left) →
      OfferedAmong .channelLock (lockBody m n 0x01#8 0x00#8 0x07#8 (s.strand n).lastTrigger) s t) ∧
      ((∃ cause, (s.channel m).lp.state = .hardLock cause) →
        OfferedAmong .channelLock (lockBody m n 0x01#8 0x01#8 0x07#8 (s.strand n).lastTrigger) s t) := by
  have idle : LinkGrows s (s'.modLp m fun _ => LineProcessor.initial .idle) := before.trans (.of_eq rfl rfl)
  have coord' : (s'.strandOf m).lastTrigger = (s.strand n).lastTrigger := by rw [State.strandOf, on, coord]
  rw [← state]
  constructor
  all_goals
    rintro ⟨x, locked⟩
    refine ⟨_, idle, ?_⟩
    simp only [State.channelToIdle, locked, State.lockNotice, State.modLp_eq, State.channel_putChannel_self, on, coord',
      lockCauseCode] at after ⊢
    exact after

/-! ### A stop, for a channel of its strand -/

section
variable (s : State) (n : StrandId)

theorem State.flushed_kept : StrandKept n s (s.flushed n) :=
  (StrandKept.channels _ s fun u m => LineKept.abandon m u).trans
    (.eachChannel _ _ fun u m => LineKept.flush m u)

theorem State.flushed_channel {m : ChannelId} (mem : m ∈ s.channelsOf n) :
    (s.flushed n).channel m =
      { s.channel m with
        rx := (s.channel m).rx.abandoned
        tt := freeTable (s.channel m).tt
        stats := ((s.flushed n).channel m).stats } := by
  obtain ⟨u, before, after⟩ := foldl_turn (s.channelsOf_nodup n) mem (fun u j => LineKept.abandon j u) s
  have abandoned : StrandKept n s ((s.channelsOf n).foldl State.abandon s) :=
    StrandKept.channels _ s fun u m => LineKept.abandon m u
  have mem' : m ∈ ((s.channelsOf n).foldl State.abandon s).channelsOf n := (abandoned.mem_channelsOf n m).2 mem
  obtain ⟨v, before', after'⟩ := State.eachChannel_turn (f := fun m t => t.flush m) mem' fun u j => LineKept.flush j u
  have last := after'.channel
  rw [State.flush_channel, before'.channel, after.channel, State.abandon_channel, before.channel] at last
  unfold State.flushed
  rw [last]

/-- The flush of a stop counts the records of each channel's own tracks (R109, R111). -/
theorem State.flushed_counts {m : ChannelId} (mem : m ∈ s.channelsOf n) (k : ChannelCounter) :
    ((s.flushed n).channel m).stats[channelIndex k] =
      (s.channel m).stats[channelIndex k] +
        emissionCount (lastMinDefect (s.channel m).tt) ((s.channel m).flushed m (s.strand n).cfg) k := by
  obtain ⟨u, before, after⟩ := foldl_turn (s.channelsOf_nodup n) mem (fun u j => LineKept.abandon j u) s
  have abandoned : StrandKept n s ((s.channelsOf n).foldl State.abandon s) :=
    StrandKept.channels _ s fun u m => LineKept.abandon m u
  have mem' : m ∈ ((s.channelsOf n).foldl State.abandon s).channelsOf n := (abandoned.mem_channelsOf n m).2 mem
  obtain ⟨v, before', after'⟩ := State.eachChannel_turn (f := fun m t => t.flush m) mem' fun u j => LineKept.flush j u
  have own : v.channel m = { s.channel m with rx := (s.channel m).rx.abandoned } := by
    rw [before'.channel, after.channel, State.abandon_channel, before.channel]
  have on : (s.channel m).cfg.strand = n := ((s.mem_channelsOf n m).1 mem).2
  have cfg : (v.strandOf m).cfg = (s.strand n).cfg := by
    rw [State.strandOf, own]
    simp only [on]
    rw [before'.strand, strand_eq_of_strands (foldl_strands s _ fun u m => State.abandon_strands u m)]
  have counted := State.channelCount_flush v m k
  unfold State.channelCount at counted
  rw [State.flushRecords_eq, own, cfg] at counted
  unfold State.flushed
  rw [after'.channel, counted]
  rfl

theorem State.stopClosed_kept : StrandKept n s (s.stopClosed n) :=
  (s.flushed_kept n).trans (.closeBillet n _ _ true _)

theorem State.stopStrand_channels (reason : StrandReason) :
    (s.stopStrand n reason).channels = ((s.stopClosed n).eachChannel n State.channelToIdle).channels := by
  rw [State.stopStrand_eq, State.strandToIdle, State.strandNotice, State.offer_channels, State.modStrand_eq,
    State.putStrand_channels]

/-- A stop ends its strand's channels (R14, R35, R87, R132). -/
theorem State.stopStrand_ended (reason : StrandReason) {m : ChannelId} (mem : m ∈ s.channelsOf n) :
    (s.channel m).Ended ((s.stopStrand n reason).channel m) ((s.channel m).flushed m (s.strand n).cfg) := by
  have closedMem : m ∈ (s.stopClosed n).channelsOf n := ((s.stopClosed_kept n).mem_channelsOf n m).2 mem
  have flushedMem : m ∈ (s.flushed n).channelsOf n := ((s.flushed_kept n).mem_channelsOf n m).2 mem
  obtain ⟨u, before, after⟩ := State.eachChannel_turn closedMem fun u j => LineKept.channelToIdle j u
  obtain ⟨log, closed⟩ := State.closeBillet_channel_but_log (s.flushed n) m flushedMem
    ((s.flushed n).strand n).high true ((s.flushed n).strand n).defects
  have last : (s.stopStrand n reason).channel m =
      { s.channel m with
        rx := (s.channel m).rx.abandoned
        lp := LineProcessor.initial .idle
        tt := freeTable (s.channel m).tt
        stats := ((s.flushed n).channel m).stats } := by
    have closed : (s.stopClosed n).channel m = _ := closed
    rw [channel_eq_of_channels (s.stopStrand_channels n reason), after.channel, State.channelToIdle_channel_self,
      before.channel, closed, State.flushed_channel s n mem]
  obtain ⟨quiet, framing, offset, expected⟩ := (s.channel m).rx.abandoned_fields
  rw [last]
  exact ⟨rfl, freeTable_empty _, rfl, framing, offset, quiet, expected,
    Channel.emitted_of_counts fun k => State.flushed_counts s n mem k⟩

/-- A stop reports each lock that it leaves (R87). -/
theorem State.stopStrand_locksLeft (reason : StrandReason) : LocksLeft n s (s.stopStrand n reason) := by
  intro m enabled on
  have mem := (s.mem_channelsOf n m).2 ⟨enabled, on⟩
  have closedMem : m ∈ (s.stopClosed n).channelsOf n := ((s.stopClosed_kept n).mem_channelsOf n m).2 mem
  have flushedMem : m ∈ (s.flushed n).channelsOf n := ((s.flushed_kept n).mem_channelsOf n m).2 mem
  obtain ⟨u, before, after⟩ := State.eachChannel_turn closedMem fun u j => LineKept.channelToIdle j u
  obtain ⟨log, closed⟩ := State.closeBillet_channel_but_log (s.flushed n) m flushedMem
    ((s.flushed n).strand n).high true ((s.flushed n).strand n).defects
  have closed : (s.stopClosed n).channel m = _ := closed
  have own : u.channel m = _ := before.channel.trans (closed.trans (by rw [State.flushed_channel s n mem]))
  refine LocksLeft.of_turn (s' := u) (by rw [own]; exact on) (by rw [own]) ?_
    ((s.stopClosed_kept n).grows.trans before.grows)
    (after.grows.trans (StrandKept.strandToIdle n _ reason).grows)
  rw [before.strand]
  unfold State.stopClosed
  rw [State.closeBillet_strand, (State.flushed_billetSteps s n).frame]

end

end Sys2Proof.Machine

/-! What an accepted cut leaves of a channel of its strand, and the end of FINISHING behind it (R113 to R118, R130,
R133). -/

namespace Sys2Proof.Machine

/-! ### The records of a split (R113, R114, R116) -/

/-- The record that a cut at K forms from a track, if it forms one (R114, R116). -/
def Track.cutRecord (t : Track) (m : ChannelId) (face : Face) (g : StrandConfig) (k : Nat) : DefectRecord :=
  if t.last + g.countsPerLine ≤ k then t.record m face g
  else { t.record m face g with stop := k, lengthMm := g.lengthMm (k - t.start), continues := true }

theorem pieceRecord_eq (t : Track) (m : ChannelId) (face : Face) (g : StrandConfig) (k : Nat) :
    pieceRecord m face g.countsPerLine g.umPerCount k (cutPiece g.countsPerLine k t) =
      if t.state ≠ .tentative ∧ t.start < k then some (t.cutRecord m face g k) else none := by
  unfold cutPiece Track.cutRecord
  by_cases reached : t.state ≠ .tentative ∧ t.start < k
  · by_cases straddles : k < t.last + g.countsPerLine
    · rw [if_pos reached, if_pos reached, if_pos straddles, if_neg (Nat.not_le.2 straddles)]
      rfl
    · rw [if_pos reached, if_pos reached, if_neg straddles, if_pos (Nat.not_lt.1 straddles)]
      rfl
  · rw [if_neg reached, if_neg reached]
    rfl

/-- The tracks that tentative expiry frees form no records (R113). -/
theorem expireForCut_slot (pitch : Nat) (tt : TrackTable) (i : SlotId) :
    (expireForCut pitch tt).slots[i] =
      match tt.lastLine with
      | none => tt.slots[i]
      | some l => (tt.slots[i]).bind (expireTrack pitch l.coord) := by
  unfold expireForCut
  cases tt.lastLine with
  | none => rfl
  | some l => exact slotsOf_get _ i

theorem expireForCut_lastLine (pitch : Nat) (tt : TrackTable) : (expireForCut pitch tt).lastLine = tt.lastLine := by
  unfold expireForCut
  split <;> rfl

theorem lastMinDefect_expireForCut (pitch : Nat) (tt : TrackTable) :
    lastMinDefect (expireForCut pitch tt) = lastMinDefect tt := by
  unfold lastMinDefect
  rw [expireForCut_lastLine]

theorem cutRecords_expireForCut (m : ChannelId) (face : Face) (g : StrandConfig) (k : Nat) (tt : TrackTable) :
    cutRecords m face g.countsPerLine g.umPerCount k (expireForCut g.countsPerLine tt).slots =
      cutRecords m face g.countsPerLine g.umPerCount k tt.slots := by
  unfold cutRecords
  refine List.filterMap_congr fun i _ => ?_
  rw [expireForCut_slot]
  cases tt.lastLine with
  | none => rfl
  | some l =>
    cases tt.slots[i] with
    | none => rfl
    | some t =>
      simp only [Option.bind_some, expireTrack]
      split
      · next young =>
          simp only [pieceRecord_eq, young.1, Option.bind_none, ne_eq, not_true_eq_false, false_and, if_false]
      · rfl

theorem cutRecords_eq (c : Channel) (m : ChannelId) (g : StrandConfig) (k : Nat) :
    cutRecords m c.cfg.face g.countsPerLine g.umPerCount k c.tt.slots = c.split m g k := by
  unfold cutRecords Channel.split TrackTable.followed
  rw [filterMap_allSlots c.tt.slots fun slot => slot.bind fun t =>
      pieceRecord m c.cfg.face g.countsPerLine g.umPerCount k (cutPiece g.countsPerLine k t),
    List.filter_filter, ← List.filterMap_eq_map, List.filterMap_filter, List.filterMap_filterMap]
  refine List.filterMap_congr fun slot _ => ?_
  cases slot with
  | none => rfl
  | some t =>
    simp only [id_eq, Option.bind_some, pieceRecord_eq]
    by_cases reached : t.state ≠ .tentative ∧ t.start < k
    · rw [if_pos reached, if_pos (by simpa [and_comm] using reached)]
      rfl
    · rw [if_neg reached, if_neg (by simpa [and_comm] using reached)]

/-! ### The split of one channel -/

section
variable (s : State) (m : ChannelId) (k : Nat)

/-- The table that a cut at K leaves (R113). -/
def splitTable (pitch k : Nat) (tt : TrackTable) : TrackTable :=
  { expireForCut pitch tt with slots := cutSlots pitch k (expireForCut pitch tt).slots }

theorem State.countEmission_channel (minMm : Nat) (rs : List DefectRecord) :
    (s.countEmission m minMm rs).channel m =
      { s.channel m with stats := ((s.countEmission m minMm rs).channel m).stats } := by
  simp [State.countEmission, State.raiseChannel, State.modChannel_eq]

theorem State.splitTracks_channel :
    (s.splitTracks m k).channel m =
      { s.channel m with
        tt := splitTable (s.strandOf m).cfg.countsPerLine k (s.channel m).tt
        stats := ((s.splitTracks m k).channel m).stats } := by
  unfold State.splitTracks
  dsimp only
  rw [State.countEmission_channel, State.modTt_eq, State.channel_putChannel_self]
  rfl

theorem State.splitTracks_count (c : ChannelCounter) :
    ((s.splitTracks m k).channel m).stats[channelIndex c] =
      (s.channel m).stats[channelIndex c] +
        emissionCount (lastMinDefect (s.channel m).tt) ((s.channel m).split m (s.strandOf m).cfg k) c := by
  have counted := State.channelCount_countEmission
    (s.modTt m fun _ => splitTable (s.strandOf m).cfg.countsPerLine k (s.channel m).tt) m
    (lastMinDefect (expireForCut (s.strandOf m).cfg.countsPerLine (s.channel m).tt))
    (cutRecords m (s.channel m).cfg.face (s.strandOf m).cfg.countsPerLine (s.strandOf m).cfg.umPerCount k
      (expireForCut (s.strandOf m).cfg.countsPerLine (s.channel m).tt).slots) c
  rw [lastMinDefect_expireForCut, cutRecords_expireForCut, cutRecords_eq] at counted
  unfold State.channelCount at counted
  rw [State.modTt_eq, State.channel_putChannel_self] at counted
  unfold State.splitTracks
  dsimp only
  rw [lastMinDefect_expireForCut, cutRecords_expireForCut, cutRecords_eq]
  exact counted

/-- The records that channel m hands over at the cut are those of its tracks that are long enough (R109, R128). -/
theorem State.splitRecords_eq :
    s.splitRecords m k =
      longOnes (s.channel m).tt.minDefectMm ((s.channel m).split m (s.strandOf m).cfg k) := by
  unfold State.splitRecords
  dsimp only
  rw [lastMinDefect_expireForCut, cutRecords_expireForCut, cutRecords_eq, longOnes_eq, lastMinDefect_eq]

end

/-! ### The channels of the strand at a cut -/

section
variable (s : State) (n : StrandId) (k : Nat)

theorem State.takeCut_kept : StrandKept n s (s.takeCut n k) :=
  (StrandKept.raiseStrand n s _ _).trans (.modStrand n _ _)

theorem State.parted_kept : StrandKept n s (s.parted n k) :=
  ((s.takeCut_kept n k).trans (StrandKept.channels _ _ fun u m => LineKept.splitTracks m u k)).trans
    (.modStrand n _ _)

theorem State.takeCut_channels : (s.takeCut n k).channels = s.channels := rfl

theorem State.parted_channel {m : ChannelId} (mem : m ∈ s.channelsOf n) :
    (s.parted n k).channel m =
        { s.channel m with
          tt := splitTable (s.strand n).cfg.countsPerLine k (s.channel m).tt
          stats := ((s.parted n k).channel m).stats } ∧
      ∀ c, ((s.parted n k).channel m).stats[channelIndex c] =
        (s.channel m).stats[channelIndex c] +
          emissionCount (lastMinDefect (s.channel m).tt) ((s.channel m).split m (s.strand n).cfg k) c := by
  have cutMem : m ∈ (s.takeCut n k).channelsOf n := ((s.takeCut_kept n k).mem_channelsOf n m).2 mem
  have on : (s.channel m).cfg.strand = n := ((s.mem_channelsOf n m).1 mem).2
  obtain ⟨u, before, after⟩ := foldl_turn (f := fun t m => t.splitTracks m k) ((s.takeCut n k).channelsOf_nodup n)
    cutMem (fun u j => LineKept.splitTracks j u k) (s.takeCut n k)
  have own : u.channel m = s.channel m :=
    before.channel.trans (channel_eq_of_channels (s.takeCut_channels n k) m)
  have cfg : (u.strandOf m).cfg = (s.strand n).cfg := by
    rw [State.strandOf, own, on, before.strand, State.takeCut_strand]
  have parted : (s.parted n k).channel m = (u.splitTracks m k).channel m := by
    unfold State.parted
    rw [State.modStrand_eq, State.putStrand_channel]
    exact after.channel
  have whole := State.splitTracks_channel u m k
  have counts := State.splitTracks_count u m k
  rw [own, cfg] at whole
  rw [parted]
  refine ⟨whole, fun c => ?_⟩
  rw [counts c, own, cfg]

/-- What a cut leaves of a channel before the next billet opens or the cast ends: the coverage and the tracks below K
gone, the records counted (R113, R117, R130). -/
theorem State.cutClosed_channel {m : ChannelId} (mem : m ∈ s.channelsOf n) :
    ∃ log, (s.cutClosed n k).channel m =
        { s.channel m with
          lp := { (s.channel m).lp with log := log }
          tt := splitTable (s.strand n).cfg.countsPerLine k (s.channel m).tt
          stats := ((s.parted n k).channel m).stats } ∧
      ((s.strand n).billet.isSome = true →
        log = coverageAbove (s.strand n).cfg.countsPerLine k (s.channel m).lp.log) := by
  have partedMem : m ∈ (s.parted n k).channelsOf n := ((s.parted_kept n k).mem_channelsOf n m).2 mem
  obtain ⟨whole, -⟩ := s.parted_channel n k mem
  have strand := s.parted_strand n k
  unfold State.cutClosed
  cases opened : (s.strand n).billet with
  | none =>
    obtain ⟨log, closed⟩ := State.closeBillet_channel_but_log (s.parted n k) m partedMem k false
      ((s.takeCut n k).closingSet n k)
    rw [whole] at closed
    exact ⟨log, closed, nofun⟩
  | some b =>
    have opened' : ((s.parted n k).strand n).billet = some b := by rw [strand, opened]
    have closed := State.closeBillet_channel (s.parted n k) m partedMem k false ((s.takeCut n k).closingSet n k) opened'
    rw [whole, strand] at closed
    exact ⟨_, closed, fun _ => rfl⟩

theorem State.tracksDiscarded_kept : StrandKept n s (s.tracksDiscarded n) :=
  ((StrandKept.raiseStrand n s _ _).trans (.modStrand n _ _)).trans
    (StrandKept.channels _ _ fun u j => (LineKept.abandon j u).trans (.modTt j _ freeTable))

theorem State.tracksDiscarded_strand :
    (s.tracksDiscarded n).strand n =
      { s.strand n with
        defects := [], stats := ((s.raiseStrand n .tailDiscarded (s.strand n).defects.length).strand n).stats } := by
  unfold State.tracksDiscarded
  rw [strand_eq_of_strands (foldl_strands (f := fun t m => (t.abandon m).modTt m freeTable) _ _ fun u m =>
    State.abandon_strands u m)]
  simp [State.discardTail, State.modStrand_eq, State.raiseStrand_eq]

theorem State.tracksDiscarded_channel {m : ChannelId} (mem : m ∈ s.channelsOf n) :
    (s.tracksDiscarded n).channel m =
      { s.channel m with rx := (s.channel m).rx.abandoned, tt := freeTable (s.channel m).tt } := by
  have discardMem : m ∈ (s.discardTail n).channelsOf n := mem
  obtain ⟨u, before, after⟩ := foldl_turn ((s.discardTail n).channelsOf_nodup n) discardMem
    (fun u j => (LineKept.abandon j u).trans (.modTt j _ freeTable)) (s.discardTail n)
  unfold State.tracksDiscarded
  rw [after.channel, State.modTt_eq, State.channel_putChannel_self, State.abandon_channel, before.channel]
  rfl

/-- The end of FINISHING ends the strand's channels, their tracks discarded (R35, R87, R118). -/
theorem State.endFinishing_channel {m : ChannelId} (mem : m ∈ s.channelsOf n) :
    (s.endFinishing n).channel m =
      { s.channel m with
        rx := (s.channel m).rx.abandoned, lp := LineProcessor.initial .idle, tt := freeTable (s.channel m).tt } := by
  have freedMem : m ∈ (s.tracksDiscarded n).channelsOf n := ((s.tracksDiscarded_kept n).mem_channelsOf n m).2 mem
  obtain ⟨v, before, after⟩ := State.eachChannel_turn freedMem fun u j => LineKept.channelToIdle j u
  rw [State.endFinishing_eq, State.strandToIdle, State.strandNotice, State.offer_channel, State.modStrand_eq,
    State.putStrand_channel, after.channel, State.channelToIdle_channel_self, before.channel,
    State.tracksDiscarded_channel s n mem]

/-- The end of FINISHING reports each lock that it leaves (R87). -/
theorem State.endFinishing_locksLeft : LocksLeft n s (s.endFinishing n) := by
  intro m enabled on
  have mem := (s.mem_channelsOf n m).2 ⟨enabled, on⟩
  have freedMem : m ∈ (s.tracksDiscarded n).channelsOf n := ((s.tracksDiscarded_kept n).mem_channelsOf n m).2 mem
  have freed := State.tracksDiscarded_channel s n mem
  obtain ⟨v, before, after⟩ := State.eachChannel_turn freedMem fun u j => LineKept.channelToIdle j u
  refine LocksLeft.of_turn (s' := v) (by rw [before.channel, freed]; exact on) (by rw [before.channel, freed]) ?_
    ((s.tracksDiscarded_kept n).grows.trans before.grows)
    (after.grows.trans (StrandKept.strandToIdle n _ .finished).grows)
  rw [before.strand, State.tracksDiscarded_strand]

end

end Sys2Proof.Machine

/-! What a handled line leaves of its channel, part by part (03 to 06). -/

namespace Sys2Proof.Machine

/-! ### Locks and holds -/

section
variable (s : State) (m : ChannelId)

theorem State.reportFace_channels (g : FaceFlags → FaceFlags) : (s.reportFace m g).channels = s.channels := rfl

theorem State.reportWhen_channels (b : Bool) (g : FaceFlags → FaceFlags) :
    (s.reportWhen m b g).channels = s.channels := by
  unfold State.reportWhen
  split <;> rfl

theorem State.lockNotice_channels (left hard : Bool) (cause : LockCause) (coord : Nat) :
    (s.lockNotice m left hard cause coord).channels = s.channels := State.offer_channels ..

theorem State.raiseChannel_channel (k : ChannelCounter) (n : Nat) :
    (s.raiseChannel m k n).channel m =
      { s.channel m with stats := ((s.raiseChannel m k n).channel m).stats } := by
  rw [State.raiseChannel_eq, State.channel_putChannel_self]

theorem State.enterHardLock_channel (cause : HardCause) (coord : Nat) :
    (s.enterHardLock m cause coord).channel m =
      { s.channel m with
        lp := hardLockedLp cause (s.channel m).lp
        tt := freeTable (s.channel m).tt
        stats := ((s.enterHardLock m cause coord).channel m).stats } := by
  unfold State.enterHardLock
  rw [channel_eq_of_channels (State.lockNotice_channels ..), channel_eq_of_channels (State.reportFace_channels ..),
    State.raiseChannel_channel, State.modLp_eq, State.channel_putChannel_self, State.flush_channel]

theorem State.channelCount_modLp (f : LineProcessor → LineProcessor) (k : ChannelCounter) :
    (s.modLp m f).channelCount m k = s.channelCount m k := by
  unfold State.channelCount
  rw [State.modLp_eq, State.channel_putChannel_self]

theorem State.channelCount_modTt (f : TrackTable → TrackTable) (k : ChannelCounter) :
    (s.modTt m f).channelCount m k = s.channelCount m k := by
  unfold State.channelCount
  rw [State.modTt_eq, State.channel_putChannel_self]

theorem State.channelCount_modRx (f : Receiver → Receiver) (k : ChannelCounter) :
    (s.modRx m f).channelCount m k = s.channelCount m k := by
  unfold State.channelCount
  rw [State.modRx_eq, State.channel_putChannel_self]

theorem State.channelCount_enterHardLock (cause : HardCause) (coord : Nat) (k : ChannelCounter) :
    (s.enterHardLock m cause coord).channelCount m k =
      s.channelCount m k + emissionCount (lastMinDefect (s.channel m).tt) (s.flushRecords m) k +
        if k = .hardEntries then 1 else 0 := by
  unfold State.enterHardLock
  rw [State.channelCount_of_channels (State.lockNotice_channels ..),
    State.channelCount_of_channels (State.reportFace_channels ..), State.channelCount_raiseChannel,
    State.channelCount_modLp, State.channelCount_flush]
  rfl

theorem State.holdTracks_channel (line : Nat) (r : Recipe) :
    (s.holdTracks m line r).channel m =
      { s.channel m with tt := holdTable (s.strandOf m).cfg.countsPerLine line r (s.channel m).tt } := by
  unfold State.holdTracks
  rw [State.modTt_eq, State.channel_putChannel_self]

theorem State.channelCount_holdTracks (line : Nat) (r : Recipe) (k : ChannelCounter) :
    (s.holdTracks m line r).channelCount m k = s.channelCount m k := State.channelCount_modTt s m _ k

/-! ### A processed ACTIVE line -/

/-- The gate of the line at L (R65). -/
def State.gateAt (line : Nat) : Bool := gateOpen (s.strandOf m).forecasts (s.strandOf m).cfg.markHalfWindow line

/-- The runs of an ACTIVE line (R48, R56 to R59). -/
def State.runsAt (line : Nat) (r : Recipe) (samples : List Sample) : LineRuns :=
  sortRuns r (s.gateAt m line) (lineHits r (s.channel m).cfg.groups samples (s.channel m).lp.columns)

/-- The association hand-over of an ACTIVE line (R96). -/
def State.associationAt (line : Nat) (r : Recipe) (samples : List Sample) : Association :=
  associate (s.strandOf m).cfg.countsPerLine line r (s.runsAt m line r samples).narrow (s.runsAt m line r samples).wide
    (s.channel m).tt

/-- The records of the tracks that an ACTIVE line closes (R107, R108). -/
def State.closedAt (line : Nat) (r : Recipe) (samples : List Sample) : List DefectRecord :=
  (s.associationAt m line r samples).closed.map (s.recordOf m)

/-- The records of an ACTIVE line's transverse runs (R69). -/
def State.transversesAt (line : Nat) (r : Recipe) (samples : List Sample) : List DefectRecord :=
  (s.runsAt m line r samples).transverses.map
    (transverseRecord m (s.channel m).cfg.face (s.strandOf m).cfg.countsPerLine (s.strandOf m).cfg.umPerCount line
      (s.gateAt m line))

/-- The state in which an ACTIVE line's records are handed to the billet assembler: baselines, tracks, counters and
flags done. -/
def State.countedAt (line : Nat) (r : Recipe) (samples : List Sample) : State :=
  let runs := s.runsAt m line r samples
  let a := s.associationAt m line r samples
  let u := (s.modLp m (activeLp r (s.channel m).cfg.groups samples)).modTt m fun _ => a.table
  let u := (u.countRuns m runs).countAssociation m a
  let u := u.reportWhen m runs.overflow fun f => { f with runOverflow := true }
  let u := u.reportWhen m (decide (0 < a.dropped)) fun f => { f with tableFull := true }
  u.countEmission m r.minDefectMm (s.closedAt m line r samples)

theorem State.processActive_eq (line : Nat) (r : Recipe) (samples : List Sample) :
    s.processActive m line r samples =
      (s.countedAt m line r samples).receiveLine (s.channel m).cfg.strand (s.transversesAt m line r samples)
        ((s.closedAt m line r samples).filter (longEnough r.minDefectMm)) := rfl

/-- What the association adds to a counter of the channel (R101, R102, R104). -/
def associationCounts (a : Association) (k : ChannelCounter) : Counter :=
  (if k = .tracksOpened then BitVec.ofNat 32 a.opened else 0) +
    (if k = .tracksConfirmed then BitVec.ofNat 32 a.confirmed else 0) +
    if k = .tableFull then BitVec.ofNat 32 a.dropped else 0

theorem State.channelCount_countAssociation (a : Association) (k : ChannelCounter) :
    (s.countAssociation m a).channelCount m k = s.channelCount m k + associationCounts a k := by
  unfold State.countAssociation associationCounts
  rw [State.channelCount_raiseChannel, State.channelCount_raiseChannel, State.channelCount_raiseChannel]
  ac_rfl

theorem State.countAssociation_channel (a : Association) :
    (s.countAssociation m a).channel m =
      { s.channel m with stats := ((s.countAssociation m a).channel m).stats } := by
  unfold State.countAssociation
  rw [State.raiseChannel_channel, State.raiseChannel_channel, State.raiseChannel_channel]

theorem State.receiveLine_channels (n : StrandId) (a b : List DefectRecord) :
    (s.receiveLine n a b).channels = s.channels :=
  State.receiveAll_channels (s.drawn _) n _

theorem State.countedAt_channel (line : Nat) (r : Recipe) (samples : List Sample) :
    (s.countedAt m line r samples).channel m =
      { s.channel m with
        lp := activeLp r (s.channel m).cfg.groups samples (s.channel m).lp
        tt := (s.associationAt m line r samples).table
        stats := ((s.countedAt m line r samples).channel m).stats } := by
  unfold State.countedAt
  dsimp only
  rw [State.countEmission_channel, channel_eq_of_channels (State.reportWhen_channels ..),
    channel_eq_of_channels (State.reportWhen_channels ..), State.countAssociation_channel, State.countRuns_frame,
    State.channel_putChannel_self, State.modTt_eq, State.channel_putChannel_self, State.modLp_eq,
    State.channel_putChannel_self]

theorem State.processActive_channel (line : Nat) (r : Recipe) (samples : List Sample) :
    (s.processActive m line r samples).channel m =
      { s.channel m with
        lp := activeLp r (s.channel m).cfg.groups samples (s.channel m).lp
        tt := (s.associationAt m line r samples).table
        stats := ((s.countedAt m line r samples).channel m).stats } := by
  rw [State.processActive_eq, channel_eq_of_channels (State.receiveLine_channels ..), State.countedAt_channel]

theorem State.channelCount_processActive (line : Nat) (r : Recipe) (samples : List Sample) (k : ChannelCounter) :
    (s.processActive m line r samples).channelCount m k =
      s.channelCount m k + runCounts (s.runsAt m line r samples) k +
        associationCounts (s.associationAt m line r samples) k +
        emissionCount r.minDefectMm (s.closedAt m line r samples) k := by
  rw [State.processActive_eq, State.channelCount_of_channels (State.receiveLine_channels ..)]
  unfold State.countedAt
  dsimp only
  rw [State.channelCount_countEmission, State.channelCount_of_channels (State.reportWhen_channels ..),
    State.channelCount_of_channels (State.reportWhen_channels ..), State.channelCount_countAssociation,
    State.channelCount_countRuns, State.channelCount_modTt, State.channelCount_modLp]

/-! ### A processed WARMUP line -/

theorem State.processLine_of_active {line : Nat} {r : Recipe} {samples : List Sample}
    (active : (s.channel m).lp.state = .active) :
    s.processLine m line r true (.taken samples) = s.processActive m line r samples := by
  simp [State.processLine, active]

theorem State.processLine_of_warmup {line : Nat} {r : Recipe} {samples : List Sample}
    (warmup : (s.channel m).lp.state = .warmup) :
    s.processLine m line r true (.taken samples) =
      (s.modLp m (warmupLp r (s.channel m).cfg.groups samples)).holdTracks m line r := by
  simp [State.processLine, warmup]

/-! ### The receiver -/

theorem State.processLine_rx (line : Nat) (r : Recipe) (clear : Bool) (out : LineOutcome) :
    ((s.processLine m line r clear out).channel m).rx = (s.channel m).rx := by
  unfold State.processLine
  split
  · split
    · rw [State.processActive_channel]
    · rw [State.holdTracks_channel]
  · split
    · rw [State.holdTracks_channel, State.modLp_eq, State.channel_putChannel_self]
    · rw [State.holdTracks_channel]
  · rw [State.holdTracks_channel]

theorem State.finishLine_rx (line : Nat) (e : EndOfLine) :
    ((s.finishLine m line e).channel m).rx = (s.channel m).rx := by
  cases e with
  | stay => rfl
  | enterSoft left =>
    simp only [State.finishLine, channel_eq_of_channels (State.lockNotice_channels ..)]
    rw [State.raiseChannel_channel, State.modLp_eq, State.channel_putChannel_self]
  | leaveSoft left =>
    simp only [State.finishLine, channel_eq_of_channels (State.lockNotice_channels ..)]
    rw [State.modLp_eq, State.channel_putChannel_self]
  | enterHard cause => rw [State.finishLine, State.enterHardLock_channel]

theorem State.handleLine_rx (x : Settlement) : ((s.handleLine m x).channel m).rx = (s.channel m).rx := by
  cases handles : (s.channel m).lp.state.handles with
  | false => rw [State.handleLine_of_not_handles handles]
  | true =>
    cases recipe : recipeAt (s.strandOf m).history x.coord with
    | none => rw [State.handleLine_of_no_recipe x recipe]
    | some r =>
      rw [State.handleLine_of_handles handles x recipe, State.finishLine_rx, State.processLine_rx,
        State.entered_channel]

/-- A settlement ends the await with the given last expected tag, and leaves framing and tag offset (R32). -/
theorem State.settle_rx (last : Byte) (x : Settlement) :
    ((s.settle m last x).channel m).rx =
      { (s.channel m).rx with await := .quiet, timer := none, lastExpected := some last } := by
  unfold State.settle
  rw [State.handleLine_rx, State.endAwait, State.modRx_eq, State.channel_putChannel_self]

theorem State.settleMissed_quiet : ((s.settleMissed m).channel m).rx.await = .quiet := by
  unfold State.settleMissed
  split
  · next quiet => exact quiet
  · rw [State.settle_rx]

theorem State.raiseChannel_rx (k : ChannelCounter) (n : Nat) :
    ((s.raiseChannel m k n).channel m).rx = (s.channel m).rx := by
  rw [State.raiseChannel_channel]

theorem State.discard_ends (cause : DiscardCause) : ((s.discard m cause).channel m).rx.await = .quiet := by
  unfold State.discard
  dsimp only
  split
  · next quiet => exact quiet
  · rw [State.settle_rx]

theorem State.headFault_rx (coord : Nat) : ((s.headFault m coord).channel m).rx = (s.channel m).rx := by
  unfold State.headFault
  split
  iterate 3 rw [State.enterHardLock_channel]
  all_goals rfl

/-- A frame begins no await. -/
theorem State.classify_quiet (f : ScanFrame) (quiet : (s.channel m).rx.await = .quiet) :
    ((s.classify m f).channel m).rx.await = .quiet := by
  unfold State.classify
  dsimp only
  split
  · rwa [State.raiseChannel_rx]
  split
  · rwa [State.raiseChannel_rx]
  split
  · rw [State.headFault_rx]
    exact State.discard_ends s m _
  split
  · exact State.discard_ends s m _
  · unfold State.testTag
    dsimp only
    rw [quiet]
    dsimp only
    split
    all_goals rwa [State.raiseChannel_rx]

theorem State.framingFailure_quiet (quiet : (s.channel m).rx.await = .quiet) :
    ((s.framingFailure m).channel m).rx.await = .quiet := by
  unfold State.framingFailure
  split
  · exact State.discard_ends s m _
  · rwa [State.raiseChannel_rx]

theorem State.releaseChannel_rx : ((s.releaseChannel m).channel m).rx = (s.channel m).rx := by
  unfold State.releaseChannel
  dsimp only
  split
  · rw [State.enterHardLock_channel, State.modTt_eq, State.channel_putChannel_self, State.modLp_eq,
      State.channel_putChannel_self]
  · rw [channel_eq_of_channels (State.lockNotice_channels ..), State.modTt_eq, State.channel_putChannel_self,
      State.modLp_eq, State.channel_putChannel_self]

end

end Sys2Proof.Machine

/-! Channel states, awaits, baselines and slots in agreement with enabling and the strand's state (05: "Channel
states"; 02: "The await"). -/

namespace Sys2Proof.Machine

/-! ### A channel in its place -/

/-- The state of a channel follows enabling and its strand, and only a channel of a casting strand awaits a line (R22,
R30, R75, R87). -/
structure Channel.Placed (c : Channel) (strandIdle : Bool) : Prop where
  disabled : c.cfg.enabled = false → c.lp.state = .disabled
  idle : c.cfg.enabled = true → strandIdle = true → c.lp.state = .idle
  casting : c.cfg.enabled = true → strandIdle = false → c.lp.state.handles = true
  quiet : c.lp.state.handles = false → c.rx.await = .quiet

theorem ChannelState.handles_iff (x : ChannelState) : x.handles = true ↔ x ≠ .disabled ∧ x ≠ .idle := by
  cases x <;> simp [ChannelState.handles]

theorem ChannelState.handles_leftChannelState (left : LeftState) : (leftChannelState left).handles = true := by
  cases left <;> rfl

theorem Channel.settled_iff (c : Channel) (strandIdle : Bool) :
    c.Settled strandIdle ↔ c.Placed strandIdle ∧ c.HoldsByState := by
  constructor
  · rintro ⟨disabled, idle, casting, quiet, timed, dark, still⟩
    refine ⟨⟨disabled, idle, fun on busy => (ChannelState.handles_iff _).2 (casting on busy), fun off => ?_⟩,
      timed, dark, still⟩
    refine quiet ?_
    cases on : c.cfg.enabled with
    | false => exact .inl rfl
    | true =>
      cases busy : strandIdle with
      | true => exact .inr rfl
      | false => exact absurd ((ChannelState.handles_iff _).2 (casting on busy)) (by rw [off]; nofun)
  · rintro ⟨placed, timed, dark, still⟩
    refine ⟨placed.disabled, placed.idle, fun on busy => (ChannelState.handles_iff _).1 (placed.casting on busy), ?_,
      timed, dark, still⟩
    intro off
    refine placed.quiet ?_
    cases on : c.cfg.enabled with
    | false => rw [placed.disabled on]; rfl
    | true =>
      obtain off | idle := off
      · exact absurd (on.symm.trans off) nofun
      · rw [placed.idle on idle]; rfl

/-- What an event may do to a channel while its strand neither starts nor ends a cast: a channel that handles lines
goes on doing so, and one that does not keeps its state and begins no await. -/
structure Channel.Stays (c d : Channel) : Prop where
  cfg : d.cfg = c.cfg
  handles : c.lp.state.handles = true → d.lp.state.handles = true
  state : c.lp.state.handles = false → d.lp.state = c.lp.state
  quiet : c.lp.state.handles = false → c.rx.await = .quiet → d.rx.await = .quiet

theorem Channel.Stays.refl (c : Channel) : c.Stays c := ⟨rfl, id, fun _ => rfl, fun _ => id⟩

theorem Channel.Stays.placed {c d : Channel} {strandIdle : Bool} (stays : c.Stays d) (h : c.Placed strandIdle) :
    d.Placed strandIdle where
  disabled off := by
    rw [stays.cfg] at off
    have state := h.disabled off
    rw [stays.state (by rw [state]; rfl), state]
  idle on idle := by
    rw [stays.cfg] at on
    have state := h.idle on idle
    rw [stays.state (by rw [state]; rfl), state]
  casting on busy := stays.handles (h.casting (stays.cfg ▸ on) busy)
  quiet off := by
    cases before : c.lp.state.handles with
    | true => exact absurd (stays.handles before) (by rw [off]; nofun)
    | false => exact stays.quiet before (h.quiet before)

/-! ### Steps of a channel -/

theorem warmupLp_handles (r : Recipe) (groups : Nat) (samples : List Sample) (lp : LineProcessor) :
    (warmupLp r groups samples lp).state.handles = true := by
  unfold warmupLp
  dsimp only
  split
  all_goals rfl

theorem filterAfter_state (lost clear : Bool) (lp : LineProcessor) : (filterAfter lost clear lp).state = lp.state :=
  (filterAfter_kept lost clear lp).1

/-- A step of a channel leaves it handling lines exactly when it did, and the state of one that does not. -/
theorem ChannelStep.handles {c d : Channel} (step : ChannelStep c d) :
    d.lp.state.handles = c.lp.state.handles ∧ (c.lp.state.handles = false → d.lp.state = c.lp.state) := by
  have both {x y : ChannelState} (hx : x.handles = true) (hy : y.handles = true) :
      y.handles = x.handles ∧ (x.handles = false → y = x) := ⟨hy.trans hx.symm, fun off => by rw [hx] at off; exact nomatch off⟩
  cases step with
  | logged lost clear line cls => rw [filterAfter_state]; exact ⟨rfl, fun _ => rfl⟩
  | warmed r samples small warmup => exact both (by rw [warmup]; rfl) (warmupLp_handles r _ samples _)
  | softened left from' => exact both (by rw [from', ChannelState.handles_leftChannelState]) rfl
  | cleared left soft => exact both (by rw [soft]; rfl) (ChannelState.handles_leftChannelState left)
  | locked cause handles => exact both handles rfl
  | restarted handles => exact both handles rfl
  | released handles => exact both handles rfl
  | processed pitch line r samples narrow spans small sound active =>
    exact both (by rw [active]; rfl) (by simp only [activeLp, active, ChannelState.handles])
  | _ => exact ⟨rfl, fun _ => rfl⟩

theorem ChannelSteps.handles {c d : Channel} (steps : ChannelSteps c d) :
    d.lp.state.handles = c.lp.state.handles ∧ (c.lp.state.handles = false → d.lp.state = c.lp.state) := by
  induction steps with
  | refl => exact ⟨rfl, fun _ => rfl⟩
  | tail _ step ih =>
    obtain ⟨same, state⟩ := step.handles
    exact ⟨same.trans ih.1, fun off => (state (ih.1.trans off)).trans (ih.2 off)⟩

theorem Channel.Stays.of_steps {c d : Channel} (steps : ChannelSteps c d)
    (quiet : c.lp.state.handles = false → c.rx.await = .quiet → d.rx.await = .quiet) : c.Stays d where
  cfg := steps.cfg_eq
  handles on := steps.handles.1.trans on
  state := steps.handles.2
  quiet := quiet

/-! ### All channels in their places -/

/-- Every channel is in its place. -/
def State.AllPlaced (s : State) : Prop := ∀ m, (s.channel m).Placed ((s.strand (s.channel m).cfg.strand).state == .idle)

theorem State.channelsSettled_iff (s : State) :
    s.ChannelsSettled ↔ s.AllPlaced ∧ s.AllChannels Channel.HoldsByState := by
  simp only [State.ChannelsSettled, State.AllPlaced, State.AllChannels, Channel.settled_iff, forall_and]

section
variable {s t : State}

theorem State.AllPlaced.stay (h : s.AllPlaced) (channels : ∀ m, (s.channel m).Stays (t.channel m))
    (strands : ∀ n, (t.strand n).state = (s.strand n).state) : t.AllPlaced := fun m => by
  rw [strands, (channels m).cfg]
  exact (channels m).placed (h m)

theorem State.AllPlaced.of_channels (h : s.AllPlaced) (same : t.channels = s.channels)
    (strands : ∀ n, (t.strand n).state = (s.strand n).state) : t.AllPlaced :=
  h.stay (fun m => by rw [channel_eq_of_channels same]; exact .refl _) strands

theorem State.AllPlaced.of_both (h : s.AllPlaced) (same : t.channels = s.channels) (strands : t.strands = s.strands) :
    t.AllPlaced := h.of_channels same fun n => by rw [strand_eq_of_strands strands]

theorem State.AllPlaced.modStrand (h : s.AllPlaced) (n : StrandId) (f : Strand → Strand)
    (state : (f (s.strand n)).state = (s.strand n).state) : (s.modStrand n f).AllPlaced := by
  refine h.of_channels rfl fun j => ?_
  rw [State.modStrand_eq, State.strand_putStrand]
  split
  · next e => rw [state, e]
  · rfl

theorem State.AllPlaced.raiseStrand (h : s.AllPlaced) (n : StrandId) (c : StrandCounter) (k : Nat) :
    (s.raiseStrand n c k).AllPlaced := h.modStrand n _ rfl

theorem State.AllPlaced.offer (h : s.AllPlaced) (k : NoticeKind) (body : List Byte) : (s.offer k body).AllPlaced :=
  h.of_both (s.offer_channels k body) (s.offer_strands k body)

/-- The event of a line of channel m: it begins no await. -/
theorem State.AllPlaced.line (h : s.AllPlaced) {m : ChannelId} (kept : LineKept m s t) (steps : LineSteps m s t)
    (quiet : (s.channel m).rx.await = .quiet → (t.channel m).rx.await = .quiet) : t.AllPlaced := by
  refine h.stay (fun j => ?_) fun n => by rw [kept.strand_eq n]
  by_cases own : j = m
  · rw [own]
    exact .of_steps steps.channelSteps fun _ => quiet
  · rw [steps.channel_ne own]
    exact .refl _

/-! ### Events of a strand -/

/-- An event of strand n leaves the places of the channels that are not enabled on it. -/
theorem Channel.Placed.of_kept {n : StrandId} (kept : StrandKept n s t) {m : ChannelId} (other : m ∉ s.channelsOf n)
    (h : (s.channel m).Placed ((s.strand (s.channel m).cfg.strand).state == .idle)) :
    (t.channel m).Placed ((t.strand (t.channel m).cfg.strand).state == .idle) := by
  rw [State.mem_channelsOf] at other
  obtain ⟨⟨strands, channels, -⟩, -⟩ := kept
  rw [channels m other]
  by_cases on : (s.channel m).cfg.strand = n
  · have off : (s.channel m).cfg.enabled = false := Bool.eq_false_iff.2 fun enabled => other ⟨enabled, on⟩
    exact ⟨h.disabled, fun enabled => absurd (enabled.symm.trans off) nofun,
      fun enabled => absurd (enabled.symm.trans off) nofun, h.quiet⟩
  · rw [strands _ on]
    exact h

/-- The cast of strand n goes on. -/
theorem State.AllPlaced.casts {n : StrandId} (h : s.AllPlaced) (kept : StrandKept n s t)
    (before : (s.strand n).state ≠ .idle) (after : (t.strand n).state ≠ .idle)
    (steps : ∀ m ∈ s.channelsOf n, ChannelSteps (s.channel m) (t.channel m)) : t.AllPlaced := by
  intro m
  by_cases mem : m ∈ s.channelsOf n
  · obtain ⟨enabled, on⟩ := (s.mem_channelsOf n m).1 mem
    have handles := (h m).casting enabled (by rw [on]; simpa using before)
    have stays := Channel.Stays.of_steps (steps m mem) fun off => absurd (handles.symm.trans off) nofun
    have placed := stays.placed (h m)
    rw [on, beq_eq_false_iff_ne.2 before] at placed
    rw [kept.cfg_eq, on, beq_eq_false_iff_ne.2 after]
    exact placed
  · exact (h m).of_kept kept mem

/-- The cast of strand n ends. -/
theorem State.AllPlaced.ends {n : StrandId} (h : s.AllPlaced) (kept : StrandKept n s t)
    (after : (t.strand n).state = .idle)
    (ended : ∀ m ∈ s.channelsOf n,
      (t.channel m).lp = LineProcessor.initial .idle ∧ (t.channel m).rx.await = .quiet) : t.AllPlaced := by
  intro m
  by_cases mem : m ∈ s.channelsOf n
  · obtain ⟨enabled, on⟩ := (s.mem_channelsOf n m).1 mem
    obtain ⟨lp, quiet⟩ := ended m mem
    rw [kept.cfg_eq, on, after]
    refine ⟨fun off => ?_, fun _ _ => by rw [lp]; rfl, fun _ busy => absurd busy nofun, fun _ => quiet⟩
    rw [kept.cfg_eq, enabled] at off
    exact nomatch off
  · exact (h m).of_kept kept mem

theorem State.AllPlaced.stopStrand (h : s.AllPlaced) (n : StrandId) (reason : StrandReason) :
    (s.stopStrand n reason).AllPlaced := by
  refine h.ends (.stopStrand n s reason) (by rw [State.stopStrand_strand]; rfl) fun m mem => ?_
  obtain ⟨lp, -, -, -, -, quiet, -⟩ := State.stopStrand_ended s n reason mem
  exact ⟨lp, quiet⟩

theorem State.AllPlaced.endFinishing (h : s.AllPlaced) (n : StrandId) : (s.endFinishing n).AllPlaced := by
  refine h.ends (.endFinishing n s) (by rw [State.endFinishing_strand]; rfl) fun m mem => ?_
  rw [State.endFinishing_channel s n mem]
  exact ⟨rfl, (s.channel m).rx.abandoned_fields.1⟩

/-- A cut changes of a channel only its log, slots and counters. -/
theorem State.AllPlaced.closeAtCut (h : s.AllPlaced) (n : StrandId) (k : Nat) : (s.closeAtCut n k).AllPlaced := by
  refine h.stay (fun m => ?_) fun j => ?_
  · by_cases mem : m ∈ s.channelsOf n
    · obtain ⟨log, closed, -⟩ := State.cutClosed_channel s n k mem
      rw [State.closeAtCut_eq, State.modStrand_eq, State.putStrand_channel, closed]
      exact ⟨rfl, id, fun _ => rfl, fun _ => id⟩
    · obtain ⟨⟨-, channels, -⟩, -⟩ := StrandKept.closeAtCut n s k
      rw [channels m (fun on => mem ((s.mem_channelsOf n m).2 on))]
      exact .refl _
  · by_cases own : j = n
    · rw [own, State.closeAtCut_strand]
    · rw [(StrandKept.closeAtCut n s k).strand_ne own]

theorem State.AllPlaced.cut (h : s.AllPlaced) (n : StrandId) : (s.cut n).AllPlaced := by
  unfold State.cut
  split
  iterate 3 exact h.raiseStrand n _ _
  have closed := h.closeAtCut n (cutCoord (s.strand n))
  unfold State.acceptCut
  dsimp only
  split
  · exact closed.endFinishing n
  all_goals exact closed.modStrand n _ rfl

theorem State.triggered_kept (s : State) (n : StrandId) : StrandKept n s (s.triggered n) :=
  ((StrandKept.modStrand n s _).trans (.raiseStrand n _ _ _)).trans (.applySchedule n _ _)

theorem State.triggered_channels (s : State) (n : StrandId) : (s.triggered n).channels = s.channels :=
  State.applySchedule_channels ..

theorem State.AllPlaced.lineTrigger (h : s.AllPlaced) (n : StrandId) (casting : (s.strand n).state ≠ .idle) :
    (s.lineTrigger n).AllPlaced := by
  have placed : (s.triggered n).AllPlaced := by
    refine h.of_channels (s.triggered_channels n) fun j => ?_
    by_cases own : j = n
    · rw [own, State.triggered_strand]
    · rw [(s.triggered_kept n).strand_ne own]
  have before : ((s.triggered n).strand n).state ≠ .idle := by
    rw [State.triggered_strand]
    exact casting
  rw [State.lineTrigger_eq]
  refine placed.casts (.eachChannel _ _ fun u m => LineKept.takeTrigger m u _ _ _) before ?_ fun m mem => ?_
  · rw [← State.lineTrigger_eq, (State.lineTrigger_billetSteps s n).frame]
    exact before
  · obtain ⟨u, aside, after⟩ := State.eachChannel_turn mem fun u j =>
      LineKept.takeTrigger j u ((s.strand n).nextTrigger / (s.strand n).cfg.countsPerLine) (s.strand n).nextTrigger
        (s.restartsAtTrigger n)
    rw [after.channel, ← aside.channel]
    exact (LineSteps.takeTrigger m u _ _ _).channelSteps

theorem State.AllPlaced.forwardCount (h : s.AllPlaced) (n : StrandId) (casting : (s.strand n).state ≠ .idle) :
    (s.forwardCount n).AllPlaced := by
  unfold State.forwardCount
  dsimp only
  split
  · exact h.stopStrand n _
  split
  · unfold State.highRaised
    dsimp only
    have raised := (h.modStrand n (fun y => { y with travel := y.travel + 1, high := y.travel + 1 }) rfl).modStrand n
      retireForecasts rfl
    split
    · refine raised.lineTrigger n ?_
      simp only [State.modStrand_eq, State.strand_putStrand_self]
      exact casting
    · exact raised
  · exact h.modStrand n _ rfl

theorem State.AllPlaced.reverseCount (h : s.AllPlaced) (n : StrandId) : (s.reverseCount n).AllPlaced := by
  unfold State.reverseCount
  split
  · exact h.raiseStrand n _ _
  · exact h.modStrand n _ rfl

theorem State.AllPlaced.encoderCount (h : s.AllPlaced) (n : StrandId) (input : EncInput) :
    (s.encoderCount n input).AllPlaced := by
  have levelled := h.modStrand n (fun y => { y with phase := flipInput y.phase input }) rfl
  have counts (casting : (s.strand n).state ≠ .idle) (forward : Bool) :
      (if forward then (s.modStrand n fun y => { y with phase := flipInput y.phase input }).forwardCount n
        else (s.modStrand n fun y => { y with phase := flipInput y.phase input }).reverseCount n).AllPlaced := by
    cases forward with
    | true =>
      refine levelled.forwardCount n ?_
      rw [State.modStrand_eq, State.strand_putStrand_self]
      exact casting
    | false => exact levelled.reverseCount n
  unfold State.encoderCount
  dsimp only
  split
  · exact levelled
  · next casting => exact counts (by rw [casting]; nofun) _
  · next finishing => exact counts (by rw [finishing]; nofun) _

theorem State.AllPlaced.mouldStroke (h : s.AllPlaced) (n : StrandId) : (s.mouldStroke n).AllPlaced := by
  unfold State.mouldStroke
  dsimp only
  split
  · exact (h.modStrand n _ rfl).raiseStrand n _ _
  · exact (h.raiseStrand n _ _).modStrand n _ rfl

/-! ### Configuration, start and restart -/

theorem State.startStrand_channel (s : State) (n : StrandId) (e : HistoryEntry) (m : ChannelId) :
    (s.startStrand n e).channel m =
      if (s.channel m).cfg.strand = n then startedChannel (s.channel m) else s.channel m := by
  rw [State.startStrand_eq, State.strandNotice, State.offer_channel,
    channel_eq_of_channels (State.openBillet_channels _ n 0 true)]
  simp only [State.channel, Fin.getElem_fin, Vector.getElem_ofFn]

theorem State.AllPlaced.startStrand (h : s.AllPlaced) (n : StrandId) (e : HistoryEntry) :
    (s.startStrand n e).AllPlaced := by
  intro m
  rw [State.startStrand_channel]
  by_cases own : (s.channel m).cfg.strand = n
  · obtain ⟨b, strand⟩ := State.startStrand_strand s n e
    rw [if_pos own]
    have casting : ((s.startStrand n e).strand (startedChannel (s.channel m)).cfg.strand).state = .casting := by
      rw [show (startedChannel (s.channel m)).cfg.strand = n from own, strand]
      rfl
    rw [casting]
    refine ⟨fun off => ?_, fun _ idle => absurd idle nofun, fun on _ => ?_, fun _ => rfl⟩
    · have off : (s.channel m).cfg.enabled = false := off
      simp only [startedChannel, off, LineProcessor.initial]
      exact (h m).disabled off
    · have on : (s.channel m).cfg.enabled = true := on
      simp only [startedChannel, on, LineProcessor.initial]
      rfl
  · rw [if_neg own, State.startStrand_strand_ne s e own]
    exact h m

theorem State.AllPlaced.configureChannel (h : s.AllPlaced) (m : ChannelId) (cfg : ChannelConfig)
    (idle : (s.strand cfg.strand).state = .idle) : (s.modChannel m (configuredChannel cfg)).AllPlaced := by
  intro j
  rw [State.modChannel_eq, State.channel_putChannel]
  by_cases own : j = m
  · rw [if_pos own, State.putChannel_strand, show (configuredChannel cfg (s.channel m)).cfg.strand = cfg.strand from rfl,
      idle]
    refine ⟨fun off => ?_, fun on _ => ?_, fun _ busy => absurd busy nofun, fun _ => rfl⟩
    · have off : cfg.enabled = false := off
      simp [configuredChannel, off, LineProcessor.initial]
    · have on : cfg.enabled = true := on
      simp [configuredChannel, on, LineProcessor.initial]
  · rw [if_neg own, State.putChannel_strand]
    exact h j

theorem State.allPlaced_blocksInitial (s : State) : s.blocksInitial.AllPlaced := by
  intro m
  have fresh : s.blocksInitial.channel m = Channel.initial m (s.channel m).stats := by
    simp [State.channel, State.blocksInitial]
  rw [fresh, State.blocksInitial_strand]
  exact ⟨fun _ => rfl, fun on => absurd on nofun, fun _ busy => absurd busy nofun, fun _ => rfl⟩

theorem State.AllPlaced.clearCounts (h : s.AllPlaced) (cause : RestartCause) : (s.clearCounts cause).AllPlaced := by
  refine h.stay (fun m => ?_) fun n => ?_
  · unfold State.clearCounts
    split
    · simp only [State.channel, Fin.getElem_fin, Vector.getElem_ofFn]
      exact ⟨rfl, id, fun _ => rfl, fun _ => id⟩
    · exact .refl _
  · obtain ⟨stats, number, kept, -⟩ := Strand.initial_clearCounts s cause n
    rw [kept]

/-! ### Every command -/

theorem State.hunt_quiet {s : State} {m : ChannelId} (quiet : (s.channel m).rx.await = .quiet) :
    ((s.hunt m).channel m).rx.await = .quiet := by
  unfold State.hunt
  rw [State.modRx_eq, State.channel_putChannel_self]
  exact quiet

theorem Acts.allPlaced {c : Instr} (acts : Acts c s t) (h : s.AllPlaced) : t.AllPlaced := by
  cases acts with
  | count n input => exact h.encoderCount n input
  | bothInputs n | pulseEnd n | strokeIdle n | clearStrandStats n => exact h.modStrand n _ rfl
  | stroke n => exact (h.modStrand n _ rfl).mouldStroke n
  | cutEdge n => exact (h.modStrand n _ rfl).cut n
  | cutRequest n => exact h.cut n
  | receives m x =>
    refine h.line (.modRx m s _) (.channel (.receiver _ id)) fun quiet => ?_
    rw [State.modRx_eq, State.channel_putChannel_self]
    exact quiet
  | frame m f =>
    exact h.line ((LineKept.modRx m s _).trans (.classify m _ f)) ((LineSteps.hunt m s).trans (.classify m _ f))
      fun quiet => State.classify_quiet _ m f (State.hunt_quiet quiet)
  | frameFails m f =>
    exact h.line ((LineKept.modRx m s _).trans (.framingFailure m _)) ((LineSteps.hunt m s).trans (.framingFailure m _))
      fun quiet => State.framingFailure_quiet _ m (State.hunt_quiet quiet)
  | gap m inHeader =>
    exact h.line ((LineKept.modRx m s _).trans (.framingFailure m _)) ((LineSteps.hunt m s).trans (.framingFailure m _))
      fun quiet => State.framingFailure_quiet _ m (State.hunt_quiet quiet)
  | waitExpires m k => exact h.line (.settleMissed m s) (.settleMissed m s) fun _ => State.settleMissed_quiet s m
  | release m _ locked =>
    exact h.line (.releaseChannel m s) (.releaseChannel m s locked) fun quiet => by rwa [State.releaseChannel_rx]
  | hostFrame f crc =>
    unfold State.acceptFrame
    split <;> exact h.of_both rfl rfl
  | frameAbandoned c rx =>
    unfold State.abandonFrame
    split <;> exact h.of_both rfl rfl
  | clearChannelStats m =>
    refine h.stay (fun j => ?_) fun n => rfl
    rw [State.modChannel_eq, State.channel_putChannel]
    split
    · next e => rw [e]; exact ⟨rfl, id, fun _ => rfl, fun _ => id⟩
    · exact .refl _
  | configure n | schedule n | clearSchedule n => exact h.modStrand n _ rfl
  | configureChannel m cfg _ idle idle' => exact h.configureChannel m cfg idle'
  | start n i revision r => exact h.startStrand n _
  | finish n _ casting =>
    refine State.AllPlaced.offer (h.casts (.modStrand n s _) (by rw [casting]; nofun) ?_ fun m _ => ?_) _ _
    · rw [State.modStrand_eq, State.strand_putStrand_self]
      nofun
    · rw [State.modStrand_eq, State.putStrand_channel]
  | stop n => exact h.stopStrand n _
  | stored i r verified =>
    exact h.of_both (by rw [State.slotDone_channels, State.setOp_channels]; rfl)
      (by rw [State.slotDone_strands, State.setOp_strands]; rfl)
  | frozen i verified =>
    exact h.of_both (by rw [State.slotDone_channels, State.setOp_channels]; rfl)
      (by rw [State.slotDone_strands, State.setOp_strands]; rfl)
  | beginClear =>
    exact h.of_both (by rw [State.setOp_channels, State.modSlots_channels])
      (by rw [State.setOp_strands, State.modSlots_strands])
  | cleared =>
    exact h.of_both (by rw [State.storeDone_channels, State.setOp_channels, State.modSlots_channels])
      (by rw [State.storeDone_strands, State.setOp_strands, State.modSlots_strands])
  | hold c f cause => exact (State.allPlaced_blocksInitial _).clearCounts cause
  | halt => exact h.of_channels rfl fun n => by rw [State.halted_strand]
  | released pins =>
    exact (h.clearCounts (restartCause s.sup)).of_channels rfl fun n => by rw [State.releaseRestart_strand]
  | _ => exact h.of_both rfl rfl

end

/-- Settles O5: the places of the channels by the commands' operations, what they hold by the steps of a channel. -/
theorem dormantChannelsAreEmpty : Obligations.DormantChannelsAreEmpty := by
  unfold Obligations.DormantChannelsAreEmpty
  intro c s t _ settled next
  rw [State.channelsSettled_iff] at settled ⊢
  obtain ⟨placed, holds⟩ := settled
  refine ⟨?_, exec_allChannels holdsByState_invariant next holds⟩
  cases exec_does c s t next with
  | event acts => exact acts.allPlaced placed
  | idles => exact placed
  | request _ acts => exact (acts.allPlaced (placed.of_both rfl rfl)).of_both rfl rfl

end Sys2Proof.Machine

/-! The machine: one step, its state after reset, and the notices of the host link (00, 09). -/

namespace Sys2Proof.Machine

/-- Settles O1: both clauses are the two branches of the step. -/
theorem stepRunsFrontCommand : Obligations.StepRunsFrontCommand := by
  intro s
  refine ⟨fun c rest front => ?_, fun empty => ?_⟩
  · simp only [step, front]
  · simp only [step, empty]

/-! ### The state after reset -/

theorem State.reset_strand (n : StrandId) :
    State.reset.strand n = Strand.initial (Vector.replicate 20 0) 0 := by
  simp [State.strand, State.reset]

theorem State.reset_channel (m : ChannelId) : State.reset.channel m = Channel.initial m (Vector.replicate 22 0) := by
  simp [State.channel, State.reset]

theorem strandCount_reset (n : StrandId) (c : StrandCounter) : State.reset.strandCount n c = 0 := by
  simp [State.strandCount, State.reset_strand, Strand.initial]

theorem channelCount_reset (m : ChannelId) (c : ChannelCounter) : State.reset.channelCount m c = 0 := by
  simp [State.channelCount, State.reset_channel, Channel.initial]

theorem Strand.initial_settled (stats : Vector Counter 20) (number : BitVec 16) :
    (Strand.initial stats number).Settled := ⟨fun _ => ⟨rfl, rfl, rfl, rfl, rfl, rfl⟩, fun casts => absurd rfl casts⟩

theorem Channel.initial_settled (m : ChannelId) (stats : Vector Counter 22) (strandIdle : Bool) :
    (Channel.initial m stats).Settled strandIdle :=
  (Channel.settled_iff _ _).2
    ⟨⟨fun _ => rfl, fun on => absurd on nofun, fun on => absurd on nofun, fun _ => rfl⟩,
      ⟨fun _ => rfl, fun _ => rfl⟩, fun _ => ⟨LineProcessor.unseeded_initial _, rfl⟩, fun _ => slotsFree_none⟩

theorem Strand.initial_ordered (stats : Vector Counter 20) (number : BitVec 16) :
    (Strand.initial stats number).Ordered :=
  ⟨Nat.le_of_ble_eq_true rfl, Nat.le_refl 0, Nat.zero_le _, fun _ => rfl, fun casts => absurd rfl casts, .nil, nofun, .nil, nofun, .nil,
    nofun⟩

/-- The part is delivered with every slot EMPTY, unfrozen. -/
theorem Store.delivered_slot (i : SlotId) : (State.reset.slot i) = clearedSlot := by
  revert i
  decide

/-- Settles O13: the initial strand and the initial channel meet their invariants, and the store is delivered empty. -/
theorem resetMeetsTheInvariants : Obligations.ResetMeetsTheInvariants := by
  refine ⟨⟨fun n => ?_, fun m => ?_, ?_⟩, fun n => ?_, fun m => ?_, fun m c => ?_, fun n => ?_, nofun, fun n => ?_,
    fun m => ?_, fun m i t held => ?_, ?_⟩
  · rw [State.reset_strand]
    exact ⟨Nat.zero_le _, Nat.zero_le _, Nat.zero_le _, Nat.zero_le _⟩
  · rw [State.reset_channel]
    exact Nat.zero_le _
  · decide
  · rw [State.reset_strand]
    exact Strand.initial_settled _ _
  · rw [State.reset_channel]
    exact Channel.initial_settled _ _ _
  · have dark : (State.reset.channel m).lp.columns[c] = ⟨0, false⟩ := by
      rw [State.reset_channel]
      exact LineProcessor.unseeded_initial _ c
    rw [dark]
    exact ⟨Nat.zero_le _, fun _ => rfl⟩
  · rw [State.reset_strand]
    exact Strand.initial_ordered _ _
  · simp only [strandCount_reset]
    rfl
  · simp only [channelCount_reset]
    rfl
  · have free : (State.reset.channel m).tt.slots[i] = none := by
      rw [State.reset_channel]
      exact slotsFree_none i
    exact nomatch free.symm.trans held
  · show ∀ i, _
    intro i
    rw [Store.delivered_slot]
    exact ⟨nofun, nofun⟩

/-! ### Notices (R168, R169) -/

/-- Settles O15: the mask decides first, then the room of the queue. -/
theorem noticesKeepTheReserve : Obligations.NoticesKeepTheReserve := by
  intro s k body
  refine ⟨fun off => ?_, fun on room => ?_, fun on full => ?_⟩
  · rw [State.offer, off, if_neg Bool.false_ne_true]
  · have free : 2 ≤ s.freeOutput := by
      rw [State.freeOutput, outputCapacity]
      omega
    rw [State.offer, if_pos on, if_pos free]
    rfl
  · have short : ¬2 ≤ s.freeOutput := by
      rw [State.freeOutput, outputCapacity]
      omega
    rw [State.offer, if_pos on, if_neg short]
    rfl

end Sys2Proof.Machine

/-! Restart and supervision (11): the blocks at the beginning of a restart, the holds, the halt and the release. -/

namespace Sys2Proof.Machine

/-! ### What a restart makes of the blocks -/

section
variable (s : State) (cause : RestartCause)

theorem State.clearCounts_strand (n : StrandId) :
    (s.clearCounts cause).strand n =
      if clearsCounts cause then { s.strand n with stats := Vector.replicate 20 0, billetCounter := 0 }
      else s.strand n := by
  unfold State.clearCounts
  split
  · simp [State.strand]
  · rfl

theorem State.clearCounts_channel (m : ChannelId) :
    (s.clearCounts cause).channel m =
      if clearsCounts cause then { s.channel m with stats := Vector.replicate 22 0 } else s.channel m := by
  unfold State.clearCounts
  split
  · simp [State.channel]
  · rfl

theorem State.clearCounts_linkStats :
    (s.clearCounts cause).linkStats = if clearsCounts cause then Vector.replicate 5 0 else s.linkStats := by
  unfold State.clearCounts
  split <;> rfl

theorem State.clearCounts_sup : (s.clearCounts cause).sup = s.sup := by
  unfold State.clearCounts
  split <;> rfl

theorem State.blocksInitial_channel (m : ChannelId) :
    s.blocksInitial.channel m = Channel.initial m (s.channel m).stats := by
  simp [State.channel, State.blocksInitial]

end

/-- Statistics and billet numbers are zeroed (11, "What each cause keeps"). -/
abbrev State.Uncounted (t : State) : Prop :=
  (∀ n, (t.strand n).stats = Vector.replicate 20 0 ∧ (t.strand n).billetCounter = 0) ∧
    (∀ m, (t.channel m).stats = Vector.replicate 22 0) ∧ t.linkStats = Vector.replicate 5 0

/-- Statistics and billet numbers are kept (11, "What each cause keeps"). -/
abbrev CountsKept (s t : State) : Prop :=
  (∀ n, (t.strand n).stats = (s.strand n).stats ∧ (t.strand n).billetCounter = (s.strand n).billetCounter) ∧
    (∀ m, (t.channel m).stats = (s.channel m).stats) ∧ t.linkStats = s.linkStats

/-- What the store is after a restart (R153). -/
def StoreResolved (s t : State) : Prop :=
  t.store.op = .none ∧ (s.store.op = .none → t.store = s.store) ∧
    (∀ i r, s.store.op = .store i r →
      t.slot i = ⟨.empty, false, (s.slot i).revision⟩ ∧ ∀ j, j ≠ i → t.slot j = s.slot j) ∧
    (∀ i, s.store.op = .freeze i →
      t.slot i = { s.slot i with frozen := false } ∧ ∀ j, j ≠ i → t.slot j = s.slot j) ∧
    (s.store.op = .clear → ∀ j, t.slot j = ⟨.empty, false, 0⟩)

theorem storeResolved_of_store {s t : State} (resolved : t.store = resolveStore s.store) : StoreResolved s t := by
  have slot (j : SlotId) : t.slot j = (resolveStore s.store).slots[j] := by rw [← resolved]; rfl
  unfold StoreResolved
  simp only [slot]
  rw [resolved]
  cases flight : s.store.op with
  | none => simp [resolveStore, flight]
  | store i r =>
    simp only [resolveStore, flight, Fin.getElem_fin, State.slot]
    refine ⟨trivial, nofun, ?_, nofun, nofun⟩
    rintro _ _ ⟨⟩
    exact ⟨by simp, fun j other => Vector.getElem_set_ne _ _ fun e => other (Fin.ext e.symm)⟩
  | freeze i =>
    simp only [resolveStore, flight, Fin.getElem_fin, State.slot]
    refine ⟨trivial, nofun, nofun, ?_, nofun⟩
    rintro _ ⟨⟩
    exact ⟨by simp, fun j other => Vector.getElem_set_ne _ _ fun e => other (Fin.ext e.symm)⟩
  | clear =>
    simp only [resolveStore, flight]
    exact ⟨trivial, nofun, nofun, nofun, fun _ j => by simp [clearedSlot]⟩

/-- `t` is `s` at the beginning of a restart: every block other than SUP at its starting value. -/
structure Restarted (cause : RestartCause) (s t : State) : Prop where
  held : t.sup.inRestart = true
  rq : t.rq = []
  hli : t.hli = Hli.initial s.hli.lineRate
  pending : t.pending = s.pending
  strands (n : StrandId) : t.strand n = Strand.initial (t.strand n).stats (t.strand n).billetCounter
  channels (m : ChannelId) : t.channel m = Channel.initial m (t.channel m).stats
  zeroed : clearsCounts cause = true → t.Uncounted
  kept : clearsCounts cause = false → CountsKept s t
  store : StoreResolved s t

theorem restarted_of_blocks (s : State) (f : Supervisor → Supervisor) (held : (f s.sup).inRestart = true)
    (cause : RestartCause) : Restarted cause s ((s.modSup f).blocksInitial.clearCounts cause) where
  held := by rw [State.clearCounts_sup]; exact held
  rq := State.clearCounts_rq _ cause
  hli := by rw [State.clearCounts_hli]; rfl
  pending := State.clearCounts_pending _ cause
  strands n := by
    rw [State.clearCounts_strand, State.blocksInitial_strand]
    split <;> rfl
  channels m := by
    rw [State.clearCounts_channel, State.blocksInitial_channel]
    split <;> rfl
  zeroed clears := by
    simp only [State.Uncounted, State.clearCounts_strand, State.clearCounts_channel, State.clearCounts_linkStats,
      State.blocksInitial_strand, State.blocksInitial_channel, if_pos clears, implies_true, and_self]
  kept keeps := by
    have keeps : ¬clearsCounts cause = true := Bool.eq_false_iff.1 keeps
    simp only [CountsKept, State.clearCounts_strand, State.clearCounts_channel, State.clearCounts_linkStats,
      State.blocksInitial_strand, State.blocksInitial_channel, if_neg keeps]
    exact ⟨fun _ => ⟨rfl, rfl⟩, fun _ => rfl, rfl⟩
  store := storeResolved_of_store (by rw [State.clearCounts_store]; rfl)

/-- A restart of a cause says what its counts are under any condition that means the same. -/
theorem Restarted.counts {cause : RestartCause} {s t : State} (h : Restarted cause s t) {P : Prop} [Decidable P]
    (same : P ↔ clearsCounts cause = true) : if P then t.Uncounted else CountsKept s t := by
  split
  · next clears => exact h.zeroed (same.1 clears)
  · next keeps => exact h.kept (Bool.eq_false_iff.2 fun clears => keeps (same.2 clears))

/-! ### Each beginning of a restart (R174, R181, R182) -/

/-- SUP as a hold begins: the halt and the pin hold are noted (R181). -/
def Supervisor.heldNow (p : Supervisor) : Supervisor :=
  { p with inRestart := true, haltHold := p.clock == .halted, resetSeen := p.pinHold }

theorem State.beginHold_of_running {s : State} (runs : s.sup.inRestart = false) :
    s.beginHold = (s.modSup Supervisor.heldNow).blocksInitial.clearCounts (restartCause s.sup.heldNow) := by
  rw [State.beginHold, runs, if_neg Bool.false_ne_true]
  rfl

theorem restarted_beginHold {s : State} (f : Supervisor → Supervisor) (runs : (f s.sup).inRestart = false) :
    Restarted (restartCause (f s.sup).heldNow) s (s.modSup f).beginHold := by
  rw [State.beginHold_of_running runs]
  exact restarted_of_blocks s (fun p => (f p).heldNow) rfl _

/-- The cause of a hold that begins zeroes the counts when SUP has started, or when the supply was low outside a halt.
-/
theorem clearsCounts_heldNow (p : Supervisor) :
    clearsCounts (restartCause p.heldNow) = true ↔ p.started = true ∨ p.supplySeen = true ∧ p.clock = .running := by
  unfold restartCause Supervisor.heldNow
  cases p.started with
  | true => simp [clearsCounts]
  | false =>
    cases p.clock with
    | halted => simp [clearsCounts]
    | running => cases p.supplySeen <;> cases p.pinHold <;> simp [clearsCounts]

theorem restartReplyNext_of_reply {s : State} {tag : Byte} {rest : List OutFrame}
    (waits : s.hli.restartPending = true) (front : s.hli.output = ⟨0x94#8, tag, [0x00#8]⟩ :: rest) :
    s.restartReplyNext = true := by
  unfold State.restartReplyNext
  rw [waits, front]
  rfl

section
variable {s : State}

theorem exec_resetLow (s : State) :
    exec .resetLow s = .next (s.modSup fun p => { p with pinHold := true, resetSeen := true }).beginHold := rfl

theorem exec_supplyHold_of_third (off : s.sup.holding = false) (third : s.sup.below = 2) :
    exec .supplyHold s = .next s.supplyHold := by
  show Host.Outcome.next (if !s.sup.holding && s.sup.below == 2 then s.supplyHold else s) = _
  rw [off, third]
  rfl

theorem exec_supplySample_below (off : s.sup.holding = false) :
    exec (.supplySample true) s =
      .next (if 2 ≤ s.sup.below then s.supplyHold else s.modSup fun p => { p with below := p.below + 1 }) := by
  show execSupplySample true s = _
  unfold execSupplySample
  rw [off]

theorem exec_supplySample_above (on : s.sup.holding = true) :
    exec (.supplySample false) s =
      .next (if 2 ≤ s.sup.above then s.supplyRelease else s.modSup fun p => { p with above := p.above + 1 }) := by
  show execSupplySample false s = _
  unfold execSupplySample
  rw [on]

theorem exec_hostRestart_of_reply (runs : s.Runs) (reply : s.restartReplyNext = true) :
    exec .hostRestart s = .next s.beginHold := by
  show Host.Outcome.next (whileRunning s _) = _
  rw [whileRunning_of_runs runs, if_pos reply]

theorem exec_transmitComplete_of_reply (runs : s.Runs) (reply : s.restartReplyNext = true) :
    exec .transmitComplete s = .next s.beginHold := by
  show Host.Outcome.next (whileRunning s _) = _
  rw [whileRunning_of_runs runs, if_pos reply]

end

/-- Settles O21: each of the commands begins the same restart, of the cause that SUP has recorded. -/
theorem restartDefaultsEveryBlock : Obligations.RestartDefaultsEveryBlock := by
  unfold Obligations.RestartDefaultsEveryBlock
  intro s c begins
  suffices ∃ t cause, exec c s = .next t ∧ Restarted cause s t ∧
      ((c = .powerUp ∨ c = .supplyHold ∧ s.sup.clock = .running ∨ c = .supplySample true ∧ s.sup.clock = .running ∨
        s.sup.started = true ∨ s.sup.supplySeen = true ∧ s.sup.clock = .running) ↔ clearsCounts cause = true) by
    obtain ⟨t, cause, next, restarted, same⟩ := this
    exact ⟨t, next, restarted.held, restarted.rq, restarted.hli, restarted.pending, restarted.strands,
      restarted.channels, restarted.counts same, restarted.store⟩
  obtain ⟨runs, rfl | ⟨rfl, off, third⟩ | ⟨rfl, off, third⟩ | ⟨sent, clock, waits, tag, rest, front⟩⟩ | rfl := begins
  · exact ⟨_, _, exec_resetLow s, restarted_beginHold _ runs, by rw [clearsCounts_heldNow]; simp⟩
  · refine ⟨_, _, exec_supplyHold_of_third off third, restarted_beginHold _ runs, ?_⟩
    rw [clearsCounts_heldNow]
    simp only [reduceCtorEq, true_and, false_and, false_or]
    tauto
  · refine ⟨s.supplyHold, _, ?_, restarted_beginHold _ runs, ?_⟩
    · rw [exec_supplySample_below off, if_pos third.ge]
    · rw [clearsCounts_heldNow]
      simp only [reduceCtorEq, true_and, false_and, false_or]
      tauto
  · have reply := restartReplyNext_of_reply waits front
    obtain rfl | rfl := sent
    · exact ⟨_, _, exec_hostRestart_of_reply ⟨runs, clock⟩ reply, restarted_beginHold id runs,
        by rw [clearsCounts_heldNow]; simp⟩
    · exact ⟨_, _, exec_transmitComplete_of_reply ⟨runs, clock⟩ reply, restarted_beginHold id runs,
        by rw [clearsCounts_heldNow]; simp⟩
  · exact ⟨_, .powerUp, rfl, restarted_of_blocks s startedSupervisor rfl .powerUp, by simp [clearsCounts]⟩

end Sys2Proof.Machine

/-! The supply filter, the records of holds and of the halt, the levels of ATTN and HTXD, and the release (11). -/

namespace Sys2Proof.Machine

/-! ### The supply filter (R182) -/

/-- Settles O22: the count decides which branch of the filter a sample takes. -/
theorem supplySamplesAreCounted : Obligations.SupplySamplesAreCounted := by
  intro s
  refine ⟨fun off => ⟨?_, fun fewer => ?_, fun third => ?_⟩, fun on => ⟨?_, fun fewer => ?_, fun third => ⟨?_, ?_⟩⟩, rfl⟩
  · show execSupplySample false s = _
    unfold execSupplySample
    rw [off]
    rfl
  · rw [exec_supplySample_below off, if_neg (Nat.not_le.2 fewer)]
    rfl
  · rw [exec_supplySample_below off, if_pos third.ge, exec_supplyHold_of_third off third]
  · show execSupplySample true s = _
    unfold execSupplySample
    rw [on]
    rfl
  · rw [exec_supplySample_above on, if_neg (Nat.not_le.2 fewer)]
    rfl
  · rw [exec_supplySample_above on, if_pos third.ge]
    rfl
  · show Host.Outcome.next (if s.sup.holding && s.sup.above == 2 then s.supplyRelease else s) = _
    rw [on, third]
    rfl

/-! ### What a hold records (R181, R182) -/

/-- A hold that meets one in force changes SUP alone. -/
theorem State.beginHold_of_held {s : State} (held : s.sup.inRestart = true) : s.beginHold = s := by
  rw [State.beginHold, if_pos held]

theorem State.beginHold_sup (s : State) :
    s.beginHold.sup = if s.sup.inRestart then s.sup else s.sup.heldNow := by
  cases held : s.sup.inRestart with
  | true => rw [State.beginHold_of_held held, if_pos rfl]
  | false =>
    rw [State.beginHold_of_running held, State.clearCounts_sup, if_neg Bool.false_ne_true]
    rfl

theorem Supervisor.heldNow_haltHold (p : Supervisor) : p.heldNow.haltHold = decide (p.clock = .halted) := by
  unfold Supervisor.heldNow
  cases p.clock <;> rfl

/-- What a hold leaves in SUP beyond what its command wrote: the part is in restart, a hold in force stays what it
was, and one that begins in CLOCK_HALT is kept as one. -/
structure HoldRecorded (p q : Supervisor) : Prop where
  held : q.inRestart = true
  haltHold : q.haltHold = if p.inRestart then p.haltHold else decide (p.clock = .halted)
  resetSeen : q.resetSeen = if p.inRestart then p.resetSeen else p.pinHold
  others : q = { p with inRestart := q.inRestart, haltHold := q.haltHold, resetSeen := q.resetSeen }

theorem holdRecorded_beginHold (s : State) : HoldRecorded s.sup s.beginHold.sup := by
  rw [State.beginHold_sup]
  cases held : s.sup.inRestart with
  | true => exact ⟨held, by rw [if_pos rfl, held, if_pos rfl], by rw [if_pos rfl, held, if_pos rfl], rfl⟩
  | false =>
    rw [if_neg Bool.false_ne_true]
    exact ⟨rfl, by rw [Supervisor.heldNow_haltHold, held, if_neg Bool.false_ne_true],
      by rw [held, if_neg Bool.false_ne_true]; rfl, rfl⟩

theorem State.beginHold_modSup_of_held {s : State} (f : Supervisor → Supervisor)
    (held : (f s.sup).inRestart = true) :
    (s.modSup f).beginHold = { s with sup := (s.modSup f).beginHold.sup } := by
  have same : (s.modSup f).beginHold = s.modSup f := State.beginHold_of_held held
  rw [same]
  rfl

/-! ### The levels of HTXD and ATTN (R143, R163, R183) -/

theorem State.htxd_of_not_runs {s : State} (stopped : ¬s.Runs) (begun : Nat) : s.htxd begun = true :=
  State.htxd_idle (s.transmitting_none.2 (.inl (Bool.eq_false_iff.2 (mt s.running_iff.1 stopped)))) begun

theorem Channel.hardLocked_iff (c : Channel) : c.hardLocked = true ↔ ∃ cause, c.lp.state = .hardLock cause := by
  unfold Channel.hardLocked
  cases c.lp.state <;> simp

theorem State.attn_of_held {s : State} (held : s.sup.inRestart = true) : s.attn = s.sup.haltHold := by
  rw [State.attn, if_pos held]

theorem State.attn_of_halted {s : State} (free : s.sup.inRestart = false) (halted : s.sup.clock = .halted) :
    s.attn = true := by
  rw [State.attn, free, if_neg Bool.false_ne_true, halted]
  rfl

theorem State.attn_of_runs {s : State} (runs : s.Runs) :
    s.attn = true ↔ s.rq ≠ [] ∨ ∃ m cause, (s.channel m).lp.state = .hardLock cause := by
  obtain ⟨free, running⟩ := runs
  rw [State.attn, free, if_neg Bool.false_ne_true, running]
  simp [Channel.hardLocked_iff, mem_allChannels]

/-! ### The halt (R183) -/

theorem exec_clockHalt_of_runs {s : State} (runs : s.Runs) :
    exec .clockHalt s =
      .next
        { s.modSup fun p => { p with clock := .halted } with
          strands := Vector.ofFn fun n => { s.strands[n] with trig := false } } := by
  show Host.Outcome.next (whileRunning s _) = _
  rw [whileRunning_of_runs runs]

/-- Settles O23: each command's own record, then what a hold adds to it; the levels by the state of SUP. -/
theorem holdsAndHaltsAreRecorded : Obligations.HoldsAndHaltsAreRecorded := by
  intro s
  refine ⟨?_, fun off third => ?_, ?_, fun runs => ?_, fun stopped begun => ?_, State.attn_of_held, State.attn_of_halted,
    State.attn_of_runs⟩
  · obtain ⟨held, halt, seen, others⟩ :=
      holdRecorded_beginHold (s.modSup fun p => { p with pinHold := true, resetSeen := true })
    refine ⟨_, exec_resetLow s, ?_, held, ?_, halt, ?_, ?_, ?_, ?_,
      fun held => State.beginHold_modSup_of_held (fun p => { p with pinHold := true, resetSeen := true }) held⟩
    · rw [others]; rfl
    · rw [seen]; exact ite_self _
    all_goals rw [others]; rfl
  · obtain ⟨held, halt, -, others⟩ :=
      holdRecorded_beginHold
        (s.modSup fun p => { p with holding := true, supplySeen := true, below := 0, above := 0 })
    refine ⟨_, exec_supplyHold_of_third off third, ?_, ?_, ?_, ?_, held, ?_, halt, ?_,
      fun held => State.beginHold_modSup_of_held
        (fun p => { p with holding := true, supplySeen := true, below := 0, above := 0 }) held⟩
    all_goals rw [State.supplyHold, others]; rfl
  · refine ⟨_, rfl, ?_, ?_, ?_, ?_, ?_, ?_, ?_⟩
    all_goals rw [State.clearCounts_sup]; rfl
  · refine ⟨_, exec_clockHalt_of_runs runs, ?_, fun n => ?_, rfl, fun n => ?_, fun begun => ?_⟩
    · exact State.attn_of_halted runs.1 rfl
    · rw [State.halted_strand]
    · rw [State.halted_strand]
    · exact State.htxd_of_not_runs (fun ⟨_, running⟩ => nomatch running) begun
  · refine State.htxd_of_not_runs (fun ⟨free, running⟩ => ?_) begun
    obtain held | halted := stopped
    · exact nomatch held.symm.trans free
    · exact nomatch halted.symm.trans running

/-! ### The release (R181, R184, R185) -/

theorem causeIndex_val (cause : RestartCause) : (causeIndex cause).val = causeCode cause := by
  cases cause <;> rfl

theorem clearsCounts_iff (cause : RestartCause) : clearsCounts cause = true ↔ cause = .powerUp ∨ cause = .supplyLow := by
  cases cause <;> simp [clearsCounts]

/-- The record after a restart, count by count (R185). -/
theorem recordedCounts_get (cause : RestartCause) (counts : Vector Nat 5) (k : Fin 5) :
    (recordedCounts cause counts)[k] =
      if k.val = causeCode cause then min 255 ((if cause = .powerUp then 0 else counts[k]) + 1)
      else if cause = .powerUp then 0
      else counts[k] := by
  have base : (if cause = .powerUp then Vector.replicate 5 0 else counts)[k] =
      if cause = .powerUp then 0 else counts[k] := by
    split <;> simp
  unfold recordedCounts
  by_cases own : k.val = causeCode cause
  · obtain rfl : k = causeIndex cause := Fin.ext (own.trans (causeIndex_val cause).symm)
    rw [if_pos own, ← base]
    simp
  · have other : (causeIndex cause).val ≠ k.val := fun e => own (by rw [← e, causeIndex_val])
    rw [if_neg own, ← base]
    exact Vector.getElem_set_ne _ _ other

theorem State.releaseRestart_channel (s : State) (pins : ReleasePins) (m : ChannelId) :
    (s.releaseRestart pins).channel m = (s.clearCounts (restartCause s.sup)).channel m := rfl

theorem State.releaseRestart_sup (s : State) (pins : ReleasePins) :
    (s.releaseRestart pins).sup = releasedSupervisor s.sup := by
  show releasedSupervisor (s.clearCounts (restartCause s.sup)).sup = _
  rw [State.clearCounts_sup]

theorem exec_restartRelease_of_held {s : State} (held : s.sup.holding = true ∨ s.sup.pinHold = true)
    (pins : ReleasePins) : exec (.restartRelease pins) s = .next s := by
  show Host.Outcome.next (if _ then _ else _) = _
  obtain held | held := held <;> simp [held]

theorem exec_restartRelease_of_free {s : State} (restarts : s.sup.inRestart = true) (supply : s.sup.holding = false)
    (pin : s.sup.pinHold = false) (pins : ReleasePins) :
    exec (.restartRelease pins) s = .next (s.releaseRestart pins) := by
  show Host.Outcome.next (if _ then _ else _) = _
  simp [restarts, supply, pin]

/-- Settles O24: the release writes SUP, the pins and the notice, and zeroes the counts as the cause says. -/
theorem releaseRecordsTheCause : Obligations.ReleaseRecordsTheCause := by
  intro s pins restarts
  refine ⟨fun held => exec_restartRelease_of_held held pins, fun supply pin => ?_⟩
  have sup := s.releaseRestart_sup pins
  refine ⟨_, restartCause s.sup, exec_restartRelease_of_free restarts supply pin pins, rfl, ?_, ?_, ?_, fun k => ?_, ?_,
    fun n => ?_, ?_, ?_, fun zeroes => ?_, fun up low => ?_⟩
  · rw [State.Runs, sup]
    exact ⟨rfl, rfl⟩
  · rw [sup]; rfl
  · rw [sup]; rfl
  · rw [sup]
    exact recordedCounts_get _ _ k
  · rw [sup]
    show { (s.clearCounts (restartCause s.sup)).hli with
        lineRate := pins.straps
        output := [restartedFrame (releasedSupervisor (s.clearCounts (restartCause s.sup)).sup)] } = _
    rw [State.clearCounts_hli, State.clearCounts_sup]
    rfl
  · rw [State.releaseRestart_strand, State.clearCounts_strand]
    split <;> exact ⟨rfl, rfl, rfl, rfl, rfl⟩
  · exact State.clearCounts_rq s _
  · exact State.clearCounts_store s _
  · have clears := (clearsCounts_iff _).2 zeroes
    refine ⟨fun n => ?_, fun m => ?_, (State.clearCounts_linkStats s _).trans (if_pos clears)⟩
    · rw [State.releaseRestart_strand, State.clearCounts_strand, if_pos clears]
      exact ⟨rfl, rfl⟩
    · rw [State.releaseRestart_channel, State.clearCounts_channel, if_pos clears]
  · have keeps : ¬clearsCounts (restartCause s.sup) = true := by
      rw [clearsCounts_iff]
      exact fun zeroes => zeroes.elim up low
    have same : s.clearCounts (restartCause s.sup) = s := if_neg keeps
    refine ⟨fun n => ?_, ?_, (State.clearCounts_linkStats s _).trans (if_neg keeps)⟩
    · rw [State.releaseRestart_strand, same]
      exact ⟨rfl, rfl⟩
    · exact (congrArg State.channels same : (s.clearCounts (restartCause s.sup)).channels = s.channels)

end Sys2Proof.Machine

/-! Taking requests (09, R166, R167): one reply, its notices behind it. -/

namespace Sys2Proof.Machine

/-! ### What the effect of a request does to the link -/

/-- Behind the output queue of `s` stand notices in `t`, and the receive buffer is as it was (R166). -/
def NoticesBehind (s t : State) : Prop :=
  t.hli.buffer = s.hli.buffer ∧
    ∃ notices, t.hli.output = s.hli.output ++ notices ∧ ∀ g ∈ notices, g.tag = 0#8 ∧ 0xC0 ≤ g.kind.toNat

theorem noticeKind_ge (k : NoticeKind) : 0xC0 ≤ (BitVec.ofNat 8 (0xC0 + noticeBit k)).toNat := by
  cases k <;> decide

theorem NoticesBehind.of_grows {s t : State} (grows : LinkGrows s t) : NoticesBehind s t := by
  obtain ⟨⟨notices, link, -, enabled⟩, -⟩ := grows
  rw [NoticesBehind, link]
  refine ⟨rfl, notices, rfl, fun g mem => ?_⟩
  obtain ⟨tag, k, kind, -⟩ := enabled g mem
  exact ⟨tag, kind ▸ noticeKind_ge k⟩

theorem NoticesBehind.of_queues {s t : State} (buffer : t.hli.buffer = s.hli.buffer)
    (output : t.hli.output = s.hli.output) : NoticesBehind s t :=
  ⟨buffer, [], by rw [output, List.append_nil], nofun⟩

/-- The effect of a request adds notices alone to the output queue. -/
theorem Acts.noticesBehind {c : Instr} {s t : State} (acts : Acts c s t) {form : Byte × Nat}
    (asks : requestForm c = some form) : NoticesBehind s t := by
  cases acts with
  | cutRequest n => exact .of_grows (StrandKept.cut n s).grows
  | start n i revision r =>
    rw [State.startStrand_eq]
    exact .of_grows ((LinkGrows.of_eq rfl rfl).trans (.offer _ _ _))
  | finish n => exact .of_grows ((StrandKept.modStrand n s _).trans (.strandNotice n _ _)).grows
  | stop n => exact .of_grows (StrandKept.stopStrand n s _).grows
  | release m => exact .of_grows (LineKept.releaseChannel m s).grows
  | beginClear =>
    have same : ((s.modSlots fun x => { x with content := .writing }).setOp .clear).hli = s.hli := by
      rw [State.setOp_hli, State.modSlots_hli]
    exact .of_queues (by rw [same]) (by rw [same])
  | frameAbandoned c rx _ event | supervise c f _ event | hold c f cause _ event =>
    exact absurd (event.symm.trans asks) nofun
  | count | bothInputs | pulseEnd | strokeIdle | stroke | cutEdge | receives | frame | frameFails | gap | waitExpires
  | startByte | hostFrame | sent | stored | frozen | cleared | halt | released => exact nomatch asks
  | _ => exact .of_queues rfl rfl

/-! ### The reply (R166, R167) -/

/-- A taken request is answered first, and its effect adds notices behind the reply. -/
theorem State.handled_behind {c : Instr} {s : State} {f : HostFrame} {x : Handled} (does : x.Does c (s.take f))
    {form : Byte × Nat} (asks : requestForm c = some form) :
    (s.handled f x).hli.buffer = s.hli.buffer.drop 1 ∧ (s.handled f x).hli.inHand = none ∧
      ∃ notices, (s.handled f x).hli.output = s.hli.output ++ ⟨f.kind + 0x80#8, f.tag, x.body⟩ :: notices ∧
        ∀ g ∈ notices, g.tag = 0#8 ∧ 0xC0 ≤ g.kind.toNat := by
  obtain ⟨buffer, notices, output, formed⟩ :=
    (does.acts ((s.take f).reply f x.body) rfl rfl rfl rfl).noticesBehind asks
  exact ⟨buffer, rfl, notices, output.trans (List.append_assoc ..), formed⟩

/-- A frame that is waiting and may be taken, of a kind that is no request (R167). -/
theorem exec_unknownKind_of_takes {s : State} {f : HostFrame} (takes : s.Takes f)
    (unknown : f.kind = 0#8 ∨ 0x14 < f.kind.toNat) : exec .unknownKind s = .next (s.answered f [0x02#8]) := by
  obtain ⟨run, hand, pending, room, front⟩ := takes
  have free : decide (1 ≤ s.freeOutput) = true := by
    rw [decide_eq_true_iff, State.freeOutput, outputCapacity]
    omega
  have may : s.mayTake = true := by
    simp only [State.mayTake, (State.running_iff s).2 run, hand, pending, free]
    rfl
  have other : isRequestKind f.kind = false := by
    simp only [isRequestKind, Bool.and_eq_false_iff, decide_eq_false_iff_not]
    obtain zero | above := unknown
    · exact .inl (by rw [zero]; decide)
    · exact .inr (Nat.not_le.2 above)
  show execUnknownKind s = _
  unfold execUnknownKind
  cases held : s.hli.buffer with
  | nil => simp [held] at front
  | cons g rest =>
    obtain rfl : g = f := by simpa [held] using front
    simp only [may, other, Bool.not_false, Bool.and_self, if_true]
    rw [State.handled_refuse]
    rfl

/-- Settles O14: every handler answers with a result code and does its command's operation, which adds notices only. -/
theorem requestsAreAnsweredOnce : Obligations.RequestsAreAnsweredOnce := by
  refine ⟨fun c kind length s f form takes same => ?_, fun s f takes unknown => exec_unknownKind_of_takes takes unknown⟩
  obtain ⟨handle, does, calls⟩ := answersBy_of_form form
  have asked := State.request_of_takes takes (kind := kind.toNat) (by simpa using same) length handle
  by_cases fits : f.body.length = length
  · obtain ⟨buffer, hand, notices, output, formed⟩ := State.handled_behind (does f.body (s.take f)) form
    rw [if_pos fits] at asked
    exact ⟨_, _, notices, (calls s).trans (congrArg _ asked), buffer, hand, output, (does _ _).answers, formed,
      fun other => absurd fits other⟩
  · rw [if_neg fits, State.handled_refuse] at asked
    exact ⟨_, [0x01#8], [], (calls s).trans (congrArg _ asked), rfl, rfl, rfl, List.cons_ne_nil _ _, nofun,
      fun _ => rfl⟩

end Sys2Proof.Machine

/-! The requests of the link and the requests that read (09, 10): GET_INFO, GET_STATUS, GET_TRACKS, GET_STATS,
SET_NOTICES, RESTART. -/

namespace Sys2Proof.Machine

/-! ### Numbers in a body -/

theorem toNat_byte_of_lt {v : Nat} (small : v < 256) : (BitVec.ofNat 8 v).toNat = v := by
  rw [toNat_ofNat_byte, Nat.mod_eq_of_lt small]

theorem inRange_of_val {n v : Nat} {i : Fin n} (same : i.val = v) : inRange n v = some i := by
  rw [← same, inRange_val]

theorem inRange_byte_strand (n : StrandId) : inRange 4 (BitVec.ofNat 8 n.val).toNat = some n :=
  inRange_of_val (toNat_byte_of_lt (by omega)).symm

theorem inRange_byte_channel (m : ChannelId) : inRange 8 (BitVec.ofNat 8 m.val).toNat = some m :=
  inRange_of_val (toNat_byte_of_lt (by omega)).symm

/-! ### Lengths of the read layouts (12) -/

theorem optional_length {width : Nat} {o : Option (List Byte)} (fits : ∀ bytes, o = some bytes → bytes.length = width) :
    (optional width o).length = width + 1 := by
  cases o with
  | none => simp [optional, byte_length, Nat.add_comm]
  | some bytes => simp [optional, byte_length, fits bytes rfl, Nat.add_comm]

theorem channelConfigBytes_length (c : ChannelConfig) : (channelConfigBytes c).length = 5 := rfl

theorem awaitBytes_length (a : Await) : (awaitBytes a).length = 3 := by
  cases a <;> rfl

theorem softBytes_length (lp : LineProcessor) (bytes : List Byte) (soft : softBytes lp = some bytes) :
    bytes.length = 3 := by
  unfold softBytes at soft
  split at soft
  · obtain rfl := Option.some.inj soft
    rfl
  · exact nomatch soft

theorem causeBytes_length (lp : LineProcessor) (bytes : List Byte) (hard : causeBytes lp = some bytes) :
    bytes.length = 1 := by
  unfold causeBytes at hard
  split at hard
  · obtain rfl := Option.some.inj hard
    rfl
  · exact nomatch hard

theorem State.channelBytes_length (s : State) (m : ChannelId) : (s.channelBytes m).length = 23 := by
  have tag : (optional 1 ((s.channel m).rx.lastExpected.map fun t => [t])).length = 2 :=
    optional_length fun bytes some => by
      obtain ⟨t, -, rfl⟩ := Option.map_eq_some_iff.1 some
      rfl
  simp only [State.channelBytes, List.length_append, le_length, byte_length, channelConfigBytes_length,
    awaitBytes_length, optional_length (softBytes_length _), optional_length (causeBytes_length _), tag,
    List.length_cons, List.length_nil]

theorem slotBytes_length (x : Slot) : (slotBytes x).length = 12 := by
  have name : (slotName x.content).length = 8 := by
    cases x.content with
    | valid r => exact Vector.length_toList
    | empty | writing => rfl
  simp only [slotBytes, List.length_append, le_length, byte_length, name]

theorem storeBytes_length (st : Store) : (storeBytes st).length = 195 := by
  simp only [storeBytes, counted, List.length_append, byte_length, flatMap_length_of_width slotBytes_length,
    Vector.length_toList]

theorem trackBytes_length (t : Option Track) : (trackBytes t).length = 24 := by
  cases t with
  | none => rfl
  | some t => simp only [trackBytes, List.length_append, le_length, byte_length]

theorem State.snapshotBytes_length (s : State) (m : ChannelId) : (s.snapshotBytes m).length = 393 := by
  have line : (optional 4 ((s.channel m).tt.lastLine.map fun l => le 4 l.coord)).length = 5 :=
    optional_length fun bytes some => by
      obtain ⟨l, -, rfl⟩ := Option.map_eq_some_iff.1 some
      exact le_length 4 _
  simp only [State.snapshotBytes, List.length_append, byte_length, line, flatMap_length_of_width trackBytes_length,
    Vector.length_toList]

/-! ### The readings of a taken request are those of the state before -/

theorem State.partBytes_take (s : State) (f : HostFrame) :
    (s.take f).partBytes =
      byte s.attn.toNat ++ byte s.rq.length ++ byte (s.hli.buffer.length - 1) ++ byte (15 - s.hli.output.length) ++
        [s.hli.mask] := by
  have free : (s.take f).freeOutput - 1 = 15 - s.hli.output.length := by
    show 16 - s.hli.output.length - 1 = _
    omega
  have attn : (s.take f).attn = s.attn := rfl
  rw [State.partBytes, free, attn, State.take_hli, List.length_drop]
  rfl

theorem State.snapshotBytes_take (s : State) (f : HostFrame) (m : ChannelId) :
    (s.take f).snapshotBytes m = s.snapshotBytes m := rfl

/-! ### GET_INFO, GET_STATUS and GET_TRACKS (R121, R170, R171) -/

section
variable {s : State} {tag : Byte}

theorem exec_getInfo_of_takes (takes : s.Takes ⟨0x01#8, tag, []⟩) :
    exec .getInfo s = .next (s.answered ⟨0x01#8, tag, []⟩ ([0x00#8] ++ s.infoBytes)) := by
  show Host.Outcome.next (s.request 0x01 0 _) = _
  rw [State.request_handled takes 0x01 0 rfl rfl, State.handled_granted_id]
  rfl

/-- A scope that has items is answered with them (R171). -/
theorem exec_getStatus_of_items {scope number : Byte} (takes : s.Takes ⟨0x02#8, tag, [scope, number]⟩) {items : List Byte}
    (holds : (s.take ⟨0x02#8, tag, [scope, number]⟩).scopeBytes scope.toNat number.toNat = some items) :
    exec .getStatus s = .next (s.answered ⟨0x02#8, tag, [scope, number]⟩ ([0x00#8] ++ items)) := by
  have items : (s.take ⟨0x02#8, tag, [scope, number]⟩).scopeBytes (byteAt [scope, number] 0) (byteAt [scope, number] 1) =
      some items := holds
  show Host.Outcome.next (s.request 0x02 2 _) = _
  rw [State.request_handled takes 0x02 2 rfl rfl]
  simp only [items]
  rfl

/-- Any other scope, and a number outside its scope, is refused (R171). -/
theorem exec_getStatus_of_none {scope number : Byte} (takes : s.Takes ⟨0x02#8, tag, [scope, number]⟩)
    (holds : (s.take ⟨0x02#8, tag, [scope, number]⟩).scopeBytes scope.toNat number.toNat = none) :
    exec .getStatus s = .next (s.answered ⟨0x02#8, tag, [scope, number]⟩ [0x03#8]) := by
  have items : (s.take ⟨0x02#8, tag, [scope, number]⟩).scopeBytes (byteAt [scope, number] 0) (byteAt [scope, number] 1) =
      none := holds
  show Host.Outcome.next (s.request 0x02 2 _) = _
  rw [State.request_handled takes 0x02 2 rfl rfl]
  simp only [items]
  rfl

theorem State.scopeBytes_none (t : State) {scope number : Byte}
    (bad : scope = 1#8 ∧ 4 ≤ number.toNat ∨ scope = 2#8 ∧ 8 ≤ number.toNat ∨ 3 < scope.toNat) :
    t.scopeBytes scope.toNat number.toNat = none := by
  obtain ⟨rfl, outside⟩ | ⟨rfl, outside⟩ | above := bad
  · show (inRange 4 number.toNat).map _ = none
    rw [inRange_of_le outside, Option.map_none]
  · show (inRange 8 number.toNat).map _ = none
    rw [inRange_of_le outside, Option.map_none]
  · unfold State.scopeBytes
    split
    iterate 4 omega
    rfl

theorem exec_getTracks_of_channel (m : ChannelId) (takes : s.Takes ⟨0x11#8, tag, byte m.val⟩) :
    exec .getTracks s = .next (s.answered ⟨0x11#8, tag, byte m.val⟩ ([0x00#8] ++ s.snapshotBytes m)) := by
  have named : inRange 8 (byteAt (byte m.val) 0) = some m := inRange_byte_channel m
  show Host.Outcome.next (s.request 0x11 1 _) = _
  rw [State.request_handled takes 0x11 1 rfl rfl]
  simp only [named, State.snapshotBytes_take]
  rfl

theorem exec_getTracks_of_bad_channel {number : Byte} (bad : 8 ≤ number.toNat)
    (takes : s.Takes ⟨0x11#8, tag, [number]⟩) :
    exec .getTracks s = .next (s.answered ⟨0x11#8, tag, [number]⟩ [0x03#8]) := by
  have named : inRange 8 (byteAt [number] 0) = none := inRange_of_le bad
  show Host.Outcome.next (s.request 0x11 1 _) = _
  rw [State.request_handled takes 0x11 1 rfl rfl]
  simp only [named]
  rfl

end

/-- Settles O16: the taken request reads the state as it stood, but for its own entries of the two queues. -/
theorem readRequestsChangeNothing : Obligations.ReadRequestsChangeNothing := by
  intro s tag
  refine ⟨exec_getInfo_of_takes, fun number takes => ?_, fun n takes => ?_, fun m takes => ⟨?_, s.channelBytes_length m⟩,
    fun number takes => ⟨?_, storeBytes_length _⟩, fun scope number bad takes => ?_,
    fun m takes => ⟨exec_getTracks_of_channel m takes, s.snapshotBytes_length m⟩,
    fun number bad takes => exec_getTracks_of_bad_channel bad takes⟩
  · rw [exec_getStatus_of_items takes rfl, State.partBytes_take]
    simp only [List.append_assoc]
  · exact exec_getStatus_of_items takes (congrArg (Option.map _) (inRange_byte_strand n))
  · exact exec_getStatus_of_items takes (congrArg (Option.map _) (inRange_byte_channel m))
  · exact exec_getStatus_of_items takes rfl
  · exact exec_getStatus_of_none takes (State.scopeBytes_none _ bad)

/-! ### GET_STATS (R180) -/

section
variable {s : State} {tag group number flag : Byte} (takes : s.Takes ⟨0x12#8, tag, [group, number, flag]⟩)
include takes

theorem exec_getStats_of_group {clear : Bool} (flagged : flag.toNat = clear.toNat) {g : Group}
    (named : (s.take ⟨0x12#8, tag, [group, number, flag]⟩).group group.toNat number.toNat = some g) :
    exec .getStats s =
      .next (s.handled ⟨0x12#8, tag, [group, number, flag]⟩
        (granted (counterBytes g.counters) (if clear then g.clear else id))) := by
  have reads : (s.take ⟨0x12#8, tag, [group, number, flag]⟩).group (byteAt [group, number, flag] 0)
      (byteAt [group, number, flag] 1) = some g := named
  have clears : switchOf (byteAt [group, number, flag] 2) = some clear := by
    show switchOf flag.toNat = some clear
    rw [flagged]
    cases clear <;> rfl
  show Host.Outcome.next (s.request 0x12 3 _) = _
  rw [State.request_handled takes 0x12 3 rfl rfl]
  simp only [reads, clears]

theorem exec_getStats_of_bad
    (bad : 2 < group.toNat ∨ group = 0#8 ∧ 8 ≤ number.toNat ∨ group = 1#8 ∧ 4 ≤ number.toNat ∨ 1 < flag.toNat) :
    exec .getStats s = .next (s.answered ⟨0x12#8, tag, [group, number, flag]⟩ [0x03#8]) := by
  show Host.Outcome.next (s.request 0x12 3 _) = _
  rw [State.request_handled takes 0x12 3 rfl rfl]
  have refused {h : Handled} (refuses : h = refuse .badArgument) :
      s.handled ⟨0x12#8, tag, [group, number, flag]⟩ h =
        s.answered ⟨0x12#8, tag, [group, number, flag]⟩ [0x03#8] := by
    rw [refuses, State.handled_refuse]
    rfl
  refine congrArg _ (refused ?_)
  have noGroup (outside : 2 < group.toNat ∨ group = 0#8 ∧ 8 ≤ number.toNat ∨ group = 1#8 ∧ 4 ≤ number.toNat) :
      (s.take ⟨0x12#8, tag, [group, number, flag]⟩).group (byteAt [group, number, flag] 0)
        (byteAt [group, number, flag] 1) = none := by
    obtain above | ⟨rfl, outside⟩ | ⟨rfl, outside⟩ := outside
    · show State.group _ group.toNat number.toNat = none
      unfold State.group
      split
      iterate 3 omega
      rfl
    · show (inRange 8 number.toNat).map _ = none
      rw [inRange_of_le outside, Option.map_none]
    · show (inRange 4 number.toNat).map _ = none
      rw [inRange_of_le outside, Option.map_none]
  have noSwitch (above : 1 < flag.toNat) : switchOf (byteAt [group, number, flag] 2) = none := by
    show switchOf flag.toNat = none
    unfold switchOf
    split
    iterate 2 omega
    rfl
  obtain above | outside | outside | above := bad
  · simp only [noGroup (.inl above)]
  · simp only [noGroup (.inr (.inl outside))]
  · simp only [noGroup (.inr (.inr outside))]
  · rw [noSwitch above]
    cases State.group _ (byteAt [group, number, flag] 0) (byteAt [group, number, flag] 1) <;> rfl

end

/-- Settles O18: the group named by the body is read from the taken state and cleared on the answered one. -/
theorem getStatsReadsAndClearsOneGroup : Obligations.GetStatsReadsAndClearsOneGroup := by
  intro s tag clear
  have flag : (BitVec.ofNat 8 clear.toNat).toNat = clear.toNat := by cases clear <;> rfl
  refine ⟨fun m takes => ?_, fun n takes => ?_, fun number takes => ?_,
    fun group number flag bad takes => exec_getStats_of_bad takes bad⟩
  · rw [exec_getStats_of_group takes flag (congrArg (Option.map _) (inRange_byte_channel m)), State.handled_granted]
    cases clear with
    | true => rfl
    | false => exact congrArg Host.Outcome.next (State.putChannel_self (s.answered _ _) m).symm
  · rw [exec_getStats_of_group takes flag (congrArg (Option.map _) (inRange_byte_strand n)), State.handled_granted]
    cases clear with
    | true => rfl
    | false => exact congrArg Host.Outcome.next (State.putStrand_self (s.answered _ _) n).symm
  · rw [exec_getStats_of_group takes flag rfl, State.handled_granted]
    cases clear <;> rfl

/-! ### SET_NOTICES and RESTART (R169, R174) -/

/-- Settles O19: each effect is one field of the link. -/
theorem linkRequestsSetMaskAndPending : Obligations.LinkRequestsSetMaskAndPending := by
  intro s tag
  refine ⟨fun mask takes => ?_, fun takes => ?_⟩
  · show Host.Outcome.next (s.request 0x13 1 _) = _
    rw [State.request_handled takes 0x13 1 rfl rfl, State.handled_granted]
    rfl
  · show Host.Outcome.next (s.request 0x14 0 _) = _
    rw [State.request_handled takes 0x14 0 rfl rfl, State.handled_granted]
    rfl

end Sys2Proof.Machine

/-! Host frames received and sent (09: "The line", "Receiving frames", "The output queue and notices"). -/

namespace Sys2Proof.Machine

/-! ### The receiver (R164, R165) -/

theorem toNat_append_bytes (low high : Byte) : (high ++ low).toNat = low.toNat + 256 * high.toNat := by
  have joined := Nat.shiftLeft_add_eq_or_of_lt low.isLt high.toNat
  rw [BitVec.toNat_append, ← joined, Nat.shiftLeft_eq]
  omega

/-- The two bytes of a length, low byte first, are read back from it. -/
theorem le_two_append (low high : Byte) : le 2 (high ++ low).toNat = [low, high] := by
  have := low.isLt
  have := high.isLt
  rw [toNat_append_bytes]
  show [BitVec.ofNat 8 _, BitVec.ofNat 8 _] = _
  congr 1
  · exact BitVec.eq_of_toNat_eq (by rw [toNat_ofNat_byte]; omega)
  · exact congrArg (· :: []) (BitVec.eq_of_toNat_eq (by rw [toNat_ofNat_byte]; omega))

/-- The receiver goes on in a state and one counter of the link has risen: the whole effect of a frame that is lost. -/
def State.hostRxCounted (s : State) (rx : HostRx) (i : Fin 5) : State :=
  { s with hli := { s.hli with rx := rx }, linkStats := s.linkStats.set i (s.linkStats[i] + 1) }

section
variable {s : State}

theorem State.abandonFrame_of_hunting (hunting : s.hli.rx = .hunting) (rx : HostRx) : s.abandonFrame rx = s := by
  simp only [State.abandonFrame, hunting]

theorem State.abandonFrame_of_receiving {got : List Byte} (receiving : s.hli.rx = .receiving got) (rx : HostRx) :
    s.abandonFrame rx = s.hostRxCounted rx 1 := by
  simp only [State.abandonFrame, receiving]
  rfl

theorem State.hostReceives_of_hunting (hunting : s.hli.rx = .hunting) (bytes : List Byte) :
    s.hostReceives bytes = false := by
  simp only [State.hostReceives, hunting]

section
variable (runs : s.Runs)
include runs

theorem exec_startByte_of_hunting (hunting : s.hli.rx = .hunting) :
    exec .startByte s = .next (s.modHli fun h => { h with rx := .receiving [] }) := by
  show Host.Outcome.next (whileRunning s _) = _
  rw [whileRunning_of_runs runs]
  simp only [hunting]
  rfl

theorem exec_startByte_of_receiving {got : List Byte} (receiving : s.hli.rx = .receiving got) :
    exec .startByte s = .next s := by
  show Host.Outcome.next (whileRunning s _) = _
  rw [whileRunning_of_runs runs]
  simp only [receiving]

theorem exec_hostGapTimeout_of_runs : exec .hostGapTimeout s = .next (s.abandonFrame .hunting) := by
  show Host.Outcome.next (whileRunning s _) = _
  rw [whileRunning_of_runs runs]

theorem exec_badCrc_of_runs : exec (.hostFrameBad .badCrc) s = .next (s.abandonFrame .hunting) := by
  show Host.Outcome.next (whileRunning s _) = _
  rw [whileRunning_of_runs runs]

theorem exec_characterError_of_runs (received : Character) :
    exec (.hostFrameBad (.characterError received)) s =
      .next (if isCharacterError received then s.abandonFrame .hunting else s) := by
  show Host.Outcome.next (whileRunning s _) = _
  rw [whileRunning_of_runs runs]

theorem exec_overLength_of_runs (length : BitVec 16) :
    exec (.hostFrameBad (.overLength length)) s =
      .next (if maxHostBody < length.toNat && s.hostReceives (le 2 length.toNat) then s.abandonOverLength length.toNat
        else s) := by
  show Host.Outcome.next (whileRunning s _) = _
  rw [whileRunning_of_runs runs]

/-- Nothing is abandoned while HUNTING. -/
theorem exec_hostFrameBad_of_hunting (hunting : s.hli.rx = .hunting) (why : BadHostFrame) :
    exec (.hostFrameBad why) s = .next s := by
  cases why with
  | characterError received =>
    rw [exec_characterError_of_runs runs, State.abandonFrame_of_hunting hunting, ite_self]
  | badCrc => rw [exec_badCrc_of_runs runs, State.abandonFrame_of_hunting hunting]
  | overLength length =>
    rw [exec_overLength_of_runs runs, State.hostReceives_of_hunting hunting, Bool.and_false, if_neg Bool.false_ne_true]

section
variable {got : List Byte} (receiving : s.hli.rx = .receiving got)
include receiving

/-- A complete frame of a length that is allowed: its CRC decides, then the room of the buffer. -/
theorem exec_hostFrame_of_receiving {f : HostFrame} (crc : BitVec 16) (short : f.body.length ≤ 1020)
    (begun : got <+: le 2 f.body.length ++ [f.kind, f.tag] ++ f.body) :
    exec (.hostFrame f crc) s =
      .next
        (if crc ≠ crc16 (le 2 f.body.length ++ [f.kind, f.tag] ++ f.body) then s.hostRxCounted .hunting 1
        else if s.hli.buffer.length < 4 then
          { s with
            hli := { s.hli with rx := .hunting, buffer := s.hli.buffer ++ [f] }
            linkStats := s.linkStats.set 0 (s.linkStats[0] + 1) }
        else s.hostRxCounted .hunting 2) := by
  have receives : s.hostReceives (hostFrameBytes f) = true := (s.hostReceives_iff _).2 ⟨got, receiving, begun⟩
  show Host.Outcome.next (whileRunning s _) = _
  rw [whileRunning_of_runs runs, if_pos receives, if_neg (show ¬maxHostBody < f.body.length from Nat.not_lt.2 short)]
  have covered : crc16 (le 2 f.body.length ++ [f.kind, f.tag] ++ f.body) = hostCrc f.kind f.tag f.body := rfl
  rw [covered]
  by_cases good : hostCrc f.kind f.tag f.body = crc
  · rw [if_pos good, if_neg (not_not.2 good.symm), State.acceptFrame]
    by_cases room : s.hli.buffer.length < 4
    · rw [if_pos room]
      exact congrArg _ (if_pos room)
    · rw [if_neg room]
      exact congrArg _ (if_neg room)
  · rw [if_neg good, if_pos (fun e => good e.symm), State.abandonFrame_of_receiving receiving]

theorem exec_of_abandoned {c : Instr}
    (event : c = .hostGapTimeout ∨
      (∃ received : Character, received.getLsbD 0 = false ∧ received.getLsbD 9 = false ∧
        c = .hostFrameBad (.characterError received)) ∨ c = .hostFrameBad .badCrc) :
    exec c s = .next (s.hostRxCounted .hunting 1) := by
  obtain rfl | ⟨received, start, stop, rfl⟩ | rfl := event
  · rw [exec_hostGapTimeout_of_runs runs, State.abandonFrame_of_receiving receiving]
  · have wrong : isCharacterError received = true := by
      rw [isCharacterError, start, stop]
      rfl
    rw [exec_characterError_of_runs runs, if_pos wrong, State.abandonFrame_of_receiving receiving]
  · rw [exec_badCrc_of_runs runs, State.abandonFrame_of_receiving receiving]

theorem exec_overLength_of_receiving {low high : Byte} (long : 1020 < low.toNat + 256 * high.toNat)
    (begun : got <+: [low, high]) :
    exec (.hostFrameBad (.overLength (high ++ low))) s =
      .next (s.hostRxCounted
        (if low = 0xA5#8 then .receiving [high] else if high = 0xA5#8 then .receiving [] else .hunting) 1) := by
  have receives : s.hostReceives (le 2 (high ++ low).toNat) = true := by
    rw [le_two_append]
    exact (s.hostReceives_iff _).2 ⟨got, receiving, begun⟩
  have above : maxHostBody < (high ++ low).toNat := by
    rw [toNat_append_bytes]
    exact long
  rw [exec_overLength_of_runs runs, receives, decide_eq_true above, Bool.and_true, if_pos rfl, State.abandonOverLength,
    State.abandonFrame_of_receiving receiving, le_two_append, huntOver_two]

end

end

end

/-! ### The transmitter (R163, R168) -/

section
variable {s : State} {f : OutFrame} {rest : List OutFrame} (runs : s.Runs) (front : s.hli.output = f :: rest)
include runs front

theorem exec_transmitComplete_of_other (other : s.hli.restartPending = false ∨ f.kind ≠ 0x94#8) :
    exec .transmitComplete s = .next { s with hli := { s.hli with output := rest } } := by
  have next : s.restartReplyNext = false := by
    unfold State.restartReplyNext
    rw [front]
    obtain free | kind := other
    · rw [free, Bool.false_and]
    · simp [isRestartReply, kind]
  show Host.Outcome.next (whileRunning s _) = _
  rw [whileRunning_of_runs runs, next, if_neg Bool.false_ne_true]
  have dropped : s.hli.output.drop 1 = rest := by rw [front, List.drop_one, List.tail_cons]
  rw [← dropped]
  rfl

theorem State.transmitting_front : s.transmitting = some f := by
  rw [State.transmitting, s.running_iff.2 runs, if_pos rfl, front, List.head?_cons]

/-- Before the frame the line is at its idle level. -/
theorem State.htxd_zero : s.htxd 0 = true := by
  simp only [State.htxd, State.transmitting_front runs front]
  rfl

/-- The latest bit begun of the frame is on the line. -/
theorem State.htxd_succ (begun : Nat) : s.htxd (begun + 1) = f.lineBits.getD begun true := by
  simp only [State.htxd, State.transmitting_front runs front]
  rfl

/-- Bit j of byte i of the frame, from the start bit on. -/
theorem State.htxd_bit {i j : Nat} {b : Byte} (sent : f.wire[i]? = some b) (bit : j < 10) :
    s.htxd (10 * i + j + 1) = (character b).getLsbD j := by
  rw [State.htxd_succ runs front, OutFrame.lineBits, List.getD_eq_getElem?_getD, characters_getElem? f.wire i j bit, sent]
  rfl

/-- Behind the last bit the line is at its idle level again. -/
theorem State.htxd_after {begun : Nat} (after : 10 * f.wire.length < begun) : s.htxd begun = true := by
  obtain ⟨k, rfl⟩ : ∃ k, begun = k + 1 := ⟨begun - 1, by omega⟩
  have length : f.lineBits.length = 10 * f.wire.length := by
    rw [OutFrame.lineBits, List.length_flatMap]
    simp [Nat.mul_comm]
  rw [State.htxd_succ runs front, List.getD_eq_default _ _ (by omega)]

end

/-- Settles O20: the receiver by its state, the transmitter by the oldest frame. -/
theorem hostFramesAreBufferedOrCounted : Obligations.HostFramesAreBufferedOrCounted := by
  intro s runs goesTo
  refine ⟨fun hunting => ⟨exec_startByte_of_hunting runs hunting, ?_, exec_hostFrameBad_of_hunting runs hunting⟩,
    fun got receiving => ⟨exec_startByte_of_receiving runs receiving,
      fun f crc short begun => exec_hostFrame_of_receiving runs receiving crc short begun,
      fun c event => exec_of_abandoned runs receiving event,
      fun low high long begun => exec_overLength_of_receiving runs receiving long begun⟩,
    fun f rest front => ⟨exec_transmitComplete_of_other runs front, State.htxd_zero runs front, fun i b sent => ?_,
      fun begun after => State.htxd_after runs front after⟩,
    fun empty begun => State.htxd_idle (s.transmitting_none.2 (.inr empty)) begun⟩
  · rw [exec_hostGapTimeout_of_runs runs, State.abandonFrame_of_hunting hunting]
  · obtain ⟨start, data, stop⟩ := character_bits b
    have wired : f.wire[i]? = some b := by
      rw [← sent]
      simp only [OutFrame.wire, hostCrc, List.append_assoc, List.cons_append]
    refine ⟨(State.htxd_bit runs front wired (j := 0) (by omega)).trans start, fun j small => ?_,
      (State.htxd_bit runs front wired (j := 9) (by omega)).trans stop⟩
    have bit := State.htxd_bit runs front wired (j := 1 + j) (by omega)
    rw [show 10 * i + 2 + j = 10 * i + (1 + j) + 1 by omega, bit, data j small]

end Sys2Proof.Machine

/-! Encoder counts, mould strokes and ignored cuts (01, 04): what a strand's single events come to. -/

namespace Sys2Proof.Machine

section
variable {s : State} {n : StrandId}

/-! ### Forward counts at H (R4, R8, R64) -/

/-- The strand after a forward count at H: T and H one up, the passed forecasts retired (R4, R64). -/
def Strand.raisedByOne (x : Strand) : Strand := retireForecasts { x with travel := x.travel + 1, high := x.travel + 1 }

/-- A forward count at H below the end of the travel: T and H rise, and a line is triggered where one is due. -/
theorem State.forwardCount_of_high (top : (s.strand n).high ≤ (s.strand n).travel)
    (inTravel : (s.strand n).travel < maxCoord) :
    s.forwardCount n =
      if triggerDue (s.strand n).raisedByOne then (s.putStrand n (s.strand n).raisedByOne).lineTrigger n
      else s.putStrand n (s.strand n).raisedByOne := by
  rw [State.forwardCount, if_neg (Nat.not_le.2 inTravel), if_pos (Nat.lt_succ_of_le top), State.highRaised]
  simp only [State.modStrand_eq, State.strand_putStrand_self, State.putStrand_putStrand]
  rfl

theorem triggerDue_iff (x : Strand) :
    triggerDue x = true ↔ x.high = x.nextTrigger ∧ x.nextTrigger + x.cfg.countsPerLine ≤ maxCoord := by
  simp [triggerDue]

theorem State.encoderCount_of_idle (idle : (s.strand n).state = .idle) (input : EncInput) :
    s.encoderCount n input = s.putStrand n { s.strand n with phase := pairAfter (s.strand n).phase input } := by
  simp only [State.encoderCount, idle, State.modStrand_eq, flipInput_eq_pairAfter]

/-- A forward count of a casting strand, on the strand with its phase moved on. -/
theorem exec_encoderCount_forward (runs : s.Runs) (casting : (s.strand n).state ≠ .idle) {input : EncInput}
    (forward : movesForward (s.strand n).cfg.sign (s.strand n).phase (pairAfter (s.strand n).phase input) = true) :
    exec (.encoderCount n input) s =
      .next ((s.putStrand n { s.strand n with phase := pairAfter (s.strand n).phase input }).forwardCount n) := by
  rw [exec_encoderCount_of_runs runs, State.encoderCount_of_not_idle casting]
  dsimp only
  rw [if_pos forward]

/-! ### Mould strokes (R62, R63) -/

theorem exec_oscEdge_of_idle (runs : s.Runs) (idle : (s.strand n).state = .idle) :
    exec (.oscEdge n) s = .next (s.putStrand n { s.strand n with oscLevel := true }) := by
  show Host.Outcome.next (whileRunning s _) = _
  rw [whileRunning_of_runs runs]
  simp only [idle, State.modStrand_eq]

theorem exec_oscEdge_of_casting (runs : s.Runs) (casting : (s.strand n).state ≠ .idle) :
    exec (.oscEdge n) s = .next ((s.putStrand n { s.strand n with oscLevel := true }).mouldStroke n) := by
  show Host.Outcome.next (whileRunning s _) = _
  rw [whileRunning_of_runs runs]
  cases state : (s.strand n).state with
  | idle => exact absurd state casting
  | casting | finishing => simp only [state, State.modStrand_eq]

theorem State.mouldStroke_of_room (room : (s.strand n).forecasts.length < 24) :
    s.mouldStroke n =
      s.putStrand n
        { s.strand n with
          forecasts := (s.strand n).forecasts ++ [(s.strand n).high + (s.strand n).cfg.mouldToSensor]
          stats := (s.strand n).stats.set 2 ((s.strand n).stats[2] + 1) } := by
  rw [State.mouldStroke, if_pos (show _ < forecastCapacity from room)]
  simp only [State.raiseStrand_eq, State.modStrand_eq, State.strand_putStrand_self, State.putStrand_putStrand,
    State.strandCount]
  rfl

theorem State.mouldStroke_of_full (full : 24 ≤ (s.strand n).forecasts.length) :
    s.mouldStroke n =
      s.putStrand n
        { s.strand n with
          stats := (s.strand n).stats.set 3 ((s.strand n).stats[3] + 1)
          billet := (s.strand n).billet.map fun b => { b with forecastLost := true } } := by
  rw [State.mouldStroke, if_neg (show ¬_ < forecastCapacity from Nat.not_lt.2 full)]
  simp only [State.modBillet, State.raiseStrand_eq, State.modStrand_eq, State.strand_putStrand_self,
    State.putStrand_putStrand, State.strandCount]
  rfl

/-! ### Ignored cuts (R17, R18) -/

/-- The counter of each outcome of a cut that is ignored, and its code (R17, R18). -/
theorem State.cut_ignored {code : Nat} {place : Fin 20}
    (ignored : ((s.strand n).state = .idle ∧ code = 1 ∧ place = 7) ∨
      ((s.strand n).state ≠ .idle ∧ (s.strand n).high < (s.strand n).cfg.torchOffset ∧ code = 2 ∧ place = 5) ∨
        ((s.strand n).state ≠ .idle ∧ (s.strand n).cfg.torchOffset ≤ (s.strand n).high ∧
          (s.strand n).high - (s.strand n).cfg.torchOffset ≤ (s.strand n).lastCut + (s.strand n).cfg.countsPerLine ∧
            code = 3 ∧ place = 6)) :
    s.cut n =
      s.putStrand n
        { s.strand n with stats := (s.strand n).stats.set place ((s.strand n).stats[place] + 1) } := by
  obtain ⟨idle, -, rfl⟩ | ⟨casting, early, -, rfl⟩ | ⟨casting, reached, near, -, rfl⟩ := ignored
  · have outcome : cutOutcome (s.strand n) = .cutIdle := if_pos idle
    simp only [State.cut, outcome, State.raiseStrand_eq, State.strandCount]
    rfl
  · have outcome : cutOutcome (s.strand n) = .cutEarly := by rw [cutOutcome, if_neg casting, if_pos early]
    simp only [State.cut, outcome, State.raiseStrand_eq, State.strandCount]
    rfl
  · have outcome : cutOutcome (s.strand n) = .doubleCut := by
      rw [cutOutcome, if_neg casting, if_neg (Nat.not_lt.2 reached), if_pos (show cutCoord _ ≤ _ from near)]
    simp only [State.cut, outcome, State.raiseStrand_eq, State.strandCount]
    rfl

/-- A cut runs on the state that its statement names: a CUT_EDGE as the state stands, a CUT_STRAND after its reply. -/
theorem exec_cutEdge (runs : s.Runs) (n : StrandId) :
    exec (.cutEdge n) s = .next ((s.putStrand n { s.strand n with cutLevel := true }).cut n) := by
  show Host.Outcome.next (whileRunning s _) = _
  rw [whileRunning_of_runs runs]
  simp only [State.modStrand_eq]

theorem exec_cutStrand_of_takes {tag : Byte} (takes : s.Takes ⟨0x08#8, tag, byte n.val⟩) :
    exec .cutStrand s =
      .next (s.handled ⟨0x08#8, tag, byte n.val⟩ (granted (cutReply (s.strand n)) fun t => t.cut n)) := by
  have named : inRange 4 (byteAt (byte n.val) 0) = some n := inRange_byte_strand n
  show Host.Outcome.next (s.request 0x08 1 handleCutStrand) = _
  rw [State.request_handled takes 0x08 1 rfl rfl]
  simp only [handleCutStrand, named, State.take_strand]

theorem exec_cutStrand_of_bad_strand {tag b : Byte} (bad : 4 ≤ b.toNat) (takes : s.Takes ⟨0x08#8, tag, [b]⟩) :
    exec .cutStrand s = .next (s.answered ⟨0x08#8, tag, [b]⟩ [0x03#8]) := by
  have named : inRange 4 (byteAt [b] 0) = none := inRange_of_le bad
  show Host.Outcome.next (s.request 0x08 1 handleCutStrand) = _
  rw [State.request_handled takes 0x08 1 rfl rfl]
  simp only [handleCutStrand, named, State.handled_refuse]
  rfl

/-- The outcome code and K of a cut that is ignored (R17). -/
theorem cutReply_ignored {x : Strand} {code : Nat} {place : Fin 20}
    (ignored : (x.state = .idle ∧ code = 1 ∧ place = 7) ∨
      (x.state ≠ .idle ∧ x.high < x.cfg.torchOffset ∧ code = 2 ∧ place = 5) ∨
        (x.state ≠ .idle ∧ x.cfg.torchOffset ≤ x.high ∧
          x.high - x.cfg.torchOffset ≤ x.lastCut + x.cfg.countsPerLine ∧ code = 3 ∧ place = 6)) :
    cutReply x = byte code ++ le 4 0 := by
  obtain ⟨idle, rfl, -⟩ | ⟨casting, early, rfl, -⟩ | ⟨casting, reached, near, rfl, -⟩ := ignored
  · have outcome : cutOutcome x = .cutIdle := if_pos idle
    rw [cutReply, outcome]
    rfl
  · have outcome : cutOutcome x = .cutEarly := by rw [cutOutcome, if_neg casting, if_pos early]
    rw [cutReply, outcome]
    rfl
  · have outcome : cutOutcome x = .doubleCut := by
      rw [cutOutcome, if_neg casting, if_neg (Nat.not_lt.2 reached), if_pos (show cutCoord x ≤ _ from near)]
    rw [cutReply, outcome]
    rfl

end

/-! ### The obligations -/

/-- Settles O25: the phase, then the count's own rule on that state; no line is due, so nothing follows. -/
theorem forwardCountsRaiseHighWater : Obligations.ForwardCountsRaiseHighWater := by
  intro s n runs
  refine ⟨?_, ?_, ?_⟩
  · intro input x p
    refine ⟨fun idle => ?_, fun casting forward top inTravel noLine => ?_⟩
    · rw [exec_encoderCount_of_runs runs, State.encoderCount_of_idle idle]
    have read := s.strand_putStrand_self n { x with phase := p }
    rw [exec_encoderCount_forward runs casting forward, State.forwardCount_of_high (by rwa [read]) (by rwa [read]),
      State.strand_putStrand_self, if_neg, State.putStrand_putStrand]
    · rfl
    · rw [triggerDue_iff]
      rintro ⟨due, within⟩
      exact noLine.elim (fun other => other due) fun beyond => absurd within (Nat.not_le.2 beyond)
  · show Host.Outcome.next (whileRunning s _) = _
    rw [whileRunning_of_runs runs, State.modStrand_eq]
  · show Host.Outcome.next (whileRunning s _) = _
    rw [whileRunning_of_runs runs, State.modStrand_eq]

/-- Settles O31: the strand's state decides first, then the room of the forecast queue. -/
theorem mouldStrokesEnterForecasts : Obligations.MouldStrokesEnterForecasts := by
  intro s n runs x
  refine ⟨exec_oscEdge_of_idle runs, fun casting room => ?_, fun casting full => ?_⟩
  · rw [exec_oscEdge_of_casting runs casting, State.mouldStroke_of_room (by rwa [State.strand_putStrand_self]),
      State.strand_putStrand_self, State.putStrand_putStrand]
  · rw [exec_oscEdge_of_casting runs casting, State.mouldStroke_of_full (by rwa [State.strand_putStrand_self]),
      State.strand_putStrand_self, State.putStrand_putStrand]

/-- Settles O32: the case that applies gives the outcome, its code in the reply, and the one counter that rises. -/
theorem ignoredCutsOnlyCount : Obligations.IgnoredCutsOnlyCount := by
  refine ⟨?_, fun s tag b bad takes => exec_cutStrand_of_bad_strand bad takes⟩
  intro c s s' n code place x ignored cut
  obtain ⟨runs, ⟨rfl, rfl⟩ | ⟨rfl, tag, takes, rfl⟩⟩ := cut
  · rw [exec_cutEdge runs n, State.cut_ignored (code := code) (place := place)
      (by simpa only [State.strand_putStrand_self] using ignored)]
    simp only [State.strand_putStrand_self]
    rfl
  · have effect := State.cut_ignored (n := n)
      (s := (s.take ⟨0x08#8, tag, byte n.val⟩).reply ⟨0x08#8, tag, byte n.val⟩ ([0x00#8] ++ byte code ++ le 4 0)) ignored
    rw [exec_cutStrand_of_takes takes, cutReply_ignored ignored]
    exact congrArg (fun u : State => Host.Outcome.next u.release) effect

end Sys2Proof.Machine

/-! Requests that configure (01, 09): SET_STRAND and SET_CHANNEL, and what every taken request comes to. -/

namespace Sys2Proof.Machine

/-! ### A taken request, by what its handler makes of it (R166, R167) -/

section
variable {c : Instr} {s : State} {f : HostFrame} {kind length : Nat} {handle : List Byte → State → Handled}
  (calls : exec c s = .next (s.request kind length handle)) (takes : s.Takes f) (own : f.kind = BitVec.ofNat 8 kind)
  (fits : f.body.length = length)
include calls takes own fits

theorem exec_handled {x : Handled} (handles : handle f.body (s.take f) = x) : exec c s = .next (s.handled f x) := by
  rw [calls, State.request_handled takes kind length own fits, handles]

theorem exec_refused {code : ResultCode} (handles : handle f.body (s.take f) = refuse code) :
    exec c s = .next (s.answered f (byte (resultCode code))) := by
  rw [exec_handled calls takes own fits handles, State.handled_refuse]

theorem exec_granted_id {more : List Byte} (handles : handle f.body (s.take f) = granted more id) :
    exec c s = .next (s.answered f ([0x00#8] ++ more)) := by
  rw [exec_handled calls takes own fits handles, State.handled_granted_id]
  rfl

theorem exec_granted {more : List Byte} {effect : State → State} (handles : handle f.body (s.take f) = granted more effect) :
    exec c s = .next (effect ((s.take f).reply f ([0x00#8] ++ more))).release :=
  exec_handled calls takes own fits handles

end

/-! ### Fields read back from a body (12) -/

theorem two_bytes {v : Nat} (small : v < 65536) :
    (BitVec.ofNat 8 v).toNat + 256 * (BitVec.ofNat 8 (v / 256)).toNat = v := by
  rw [toNat_ofNat_byte, toNat_ofNat_byte]
  omega

theorem four_bytes {v : Nat} (small : v < 4294967296) :
    (BitVec.ofNat 8 v).toNat + 256 * (BitVec.ofNat 8 (v / 256)).toNat +
      65536 * ((BitVec.ofNat 8 (v / 256 / 256)).toNat + 256 * (BitVec.ofNat 8 (v / 256 / 256 / 256)).toNat) = v := by
  simp only [toNat_ofNat_byte]
  omega

/-! ### Clamp masks (R1, R146) -/

theorem clamp_eq (lo hi v : Nat) : clamp lo hi v = max lo (min hi v) := rfl

theorem clamp_zero (hi v : Nat) : clamp 0 hi v = min hi v := Nat.zero_max _

theorem clamp_top {lo hi v : Nat} (small : v ≤ hi) : clamp lo hi v = max lo v := by
  rw [clamp_eq, Nat.min_eq_right small]

theorem toNat_bne (a b : Nat) : (a != b).toNat = differs a b := by
  unfold differs
  by_cases same : a = b
  · simp [same]
  · simp [same]

theorem clampMask_nil : clampMask [] [] = 0 := rfl

theorem clampMask_cons (a b : Nat) (as bs : List Nat) :
    clampMask (a :: as) (b :: bs) = differs a b + 2 * clampMask as bs := by
  rw [← toNat_bne]
  rfl

/-! ### SET_STRAND (R1) -/

/-- The body of a SET_STRAND (12, "Request bodies"). -/
abbrev strandBody (strand um pitch mould half torch wait sign : Nat) : List Byte :=
  byte strand ++ le 2 um ++ le 2 pitch ++ le 4 mould ++ le 2 half ++ le 4 torch ++ le 2 wait ++ byte sign

theorem receivedStrandConfig_body {strand um pitch mould half torch wait sign : Nat} (sg : EncoderSign)
    (hum : um < 65536) (hpitch : pitch < 65536) (hmould : mould < 4294967296) (hhalf : half < 65536)
    (htorch : torch < 4294967296) (hwait : wait < 65536) :
    receivedStrandConfig (strandBody strand um pitch mould half torch wait sign) sg =
      ⟨um, pitch, mould, half, torch, wait, sg⟩ :=
  StrandConfig.mk.injEq .. |>.mpr
    ⟨two_bytes hum, two_bytes hpitch, four_bytes hmould, two_bytes hhalf, four_bytes htorch, two_bytes hwait, rfl⟩

theorem clampStrandConfig_eq {um pitch mould half torch wait : Nat} (sg : EncoderSign) (hwait : wait < 65536) :
    clampStrandConfig ⟨um, pitch, mould, half, torch, wait, sg⟩ =
      ⟨max 10 (min 2000 um), max 1 (min 1024 pitch), min 16777215 mould, min 4095 half, min 16777215 torch, max 50 wait,
        sg⟩ := by
  simp only [clampStrandConfig, clamp_zero, clamp_top (Nat.le_of_lt_succ hwait), clamp_eq 10, clamp_eq 1]

theorem clampMask_strandNumbers (a b : StrandConfig) :
    clampMask (strandNumbers a) (strandNumbers b) =
      differs a.umPerCount b.umPerCount + 2 * differs a.countsPerLine b.countsPerLine +
        4 * differs a.mouldToSensor b.mouldToSensor + 8 * differs a.markHalfWindow b.markHalfWindow +
        16 * differs a.torchOffset b.torchOffset + 32 * differs a.lineWaitUs b.lineWaitUs := by
  simp only [strandNumbers, clampMask_cons, clampMask_nil]
  ring

theorem signOf_of_le {v : Nat} (big : 2 ≤ v) : signOf v = none := by
  unfold signOf
  split
  iterate 2 omega
  rfl

theorem signOf_of_lt {v : Nat} (small : v < 2) : signOf v = some (if v = 0 then .plus else .minus) := by
  interval_cases v <;> rfl

section
variable {b : List Byte} {s : State}

theorem handleSetStrand_of_bad (bad : inRange 4 (byteAt b 0) = none ∨ signOf (byteAt b 17) = none) :
    handleSetStrand b s = refuse .badArgument := by
  unfold handleSetStrand
  obtain bad | bad := bad
  · rw [bad]
  · rw [bad]
    cases inRange 4 (byteAt b 0) <;> rfl

theorem handleSetStrand_of_good {n : StrandId} {sign : EncoderSign} (named : inRange 4 (byteAt b 0) = some n)
    (signed : signOf (byteAt b 17) = some sign) :
    handleSetStrand b s =
      if (s.strand n).state = .idle then
        granted
          (byte (clampMask (strandNumbers (receivedStrandConfig b sign))
            (strandNumbers (clampStrandConfig (receivedStrandConfig b sign)))))
          fun t => t.modStrand n fun x => { x with cfg := clampStrandConfig (receivedStrandConfig b sign) }
      else refuse .notIdle := by
  simp only [handleSetStrand, named, signed, State.strandIdle_iff]

end

/-- Settles O37: the body is read back field by field, then the checks of R1 in order. -/
theorem setStrandReplacesTheConfiguration : Obligations.SetStrandReplacesTheConfiguration := by
  intro s tag strand um pitch mould half torch wait sign hstrand hum hpitch hmould hhalf htorch hwait hsign f takes
  have number : byteAt f.body 0 = strand := toNat_byte_of_lt hstrand
  have code : byteAt f.body 17 = sign := toNat_byte_of_lt hsign
  have calls : exec .setStrand s = .next (s.request 0x03 18 handleSetStrand) := rfl
  refine ⟨fun bad => ?_, fun n named small => ?_⟩
  · refine exec_refused calls takes rfl rfl (handleSetStrand_of_bad ?_)
    rw [number, code]
    exact bad.imp inRange_of_le signOf_of_le
  · have handles := handleSetStrand_of_good (b := f.body) (s := s.take f) (by rw [number]; exact inRange_of_val named)
      (by rw [code]; exact signOf_of_lt small)
    refine ⟨fun casting => ?_, fun idle => ?_⟩
    · rw [State.take_strand, if_neg casting] at handles
      exact exec_refused calls takes rfl rfl handles
    · rw [State.take_strand, if_pos idle,
        receivedStrandConfig_body _ hum hpitch hmould hhalf htorch hwait, clampStrandConfig_eq _ hwait,
        clampMask_strandNumbers] at handles
      exact exec_granted calls takes rfl rfl handles

/-! ### SET_CHANNEL (R172) -/

theorem faceOf_faceCode (side : Face) : faceOf (faceCode side) = some side := by
  cases side <;> rfl

theorem faceOf_of_le {v : Nat} (big : 4 ≤ v) : faceOf v = none := by
  unfold faceOf
  split
  iterate 4 omega
  rfl

theorem switchOf_toNat (on : Bool) : switchOf on.toNat = some on := by
  cases on <;> rfl

theorem switchOf_of_le {v : Nat} (big : 2 ≤ v) : switchOf v = none := by
  unfold switchOf
  split
  iterate 2 omega
  rfl

theorem State.faceTaken_iff (s : State) (m : ChannelId) (cfg : ChannelConfig) :
    s.faceTaken m cfg = true ↔
      ∃ j, j ≠ m ∧ (s.channel j).cfg.enabled = true ∧ (s.channel j).cfg.strand = cfg.strand ∧
        (s.channel j).cfg.face = cfg.face := by
  simp [State.faceTaken, mem_allChannels, and_assoc]

section
variable {b : List Byte} {s : State}

theorem receivedChannelConfig_of_bad
    (bad : switchOf (byteAt b 1) = none ∨ inRange 4 (byteAt b 2) = none ∨ faceOf (byteAt b 3) = none) :
    receivedChannelConfig b = none := by
  unfold receivedChannelConfig
  obtain bad | bad | bad := bad
  · rw [bad]
  · rw [bad]
    cases switchOf (byteAt b 1) <;> rfl
  · rw [bad]
    cases switchOf (byteAt b 1) <;> cases inRange 4 (byteAt b 2) <;> rfl

theorem handleSetChannel_of_bad (bad : inRange 8 (byteAt b 0) = none ∨ receivedChannelConfig b = none) :
    handleSetChannel b s = refuse .badArgument := by
  unfold handleSetChannel
  obtain bad | bad := bad
  · rw [bad]
  · rw [bad]
    cases inRange 8 (byteAt b 0) <;> rfl

theorem handleSetChannel_of_good {m : ChannelId} {raw : ChannelConfig} (named : inRange 8 (byteAt b 0) = some m)
    (received : receivedChannelConfig b = some raw) :
    handleSetChannel b s =
      if ¬((s.strand (s.channel m).cfg.strand).state = .idle ∧ (s.strand raw.strand).state = .idle) then refuse .notIdle
      else if raw.enabled = true ∧ s.faceTaken m raw = true then refuse .badArgument
      else
        granted (byte (differs raw.groups (clamp 4 32 raw.groups))) fun t =>
          t.modChannel m (configuredChannel { raw with groups := clamp 4 32 raw.groups }) := by
  have mask : clampMask [raw.groups] [clamp 4 32 raw.groups] = differs raw.groups (clamp 4 32 raw.groups) := by
    rw [clampMask_cons, clampMask_nil]
    rfl
  simp only [handleSetChannel, named, received, mask, Bool.not_eq_true', Bool.and_eq_true, ← Bool.not_eq_true, State.strandIdle_iff, not_and_or]

end

/-- Settles O38: the codes are read back from the body, then the checks of R172 in order. -/
theorem setChannelResetsTheChannel : Obligations.SetChannelResetsTheChannel := by
  intro s tag channel enabled strand face headId groups f takes
  have calls : exec .setChannel s = .next (s.request 0x04 6 handleSetChannel) := rfl
  refine ⟨fun bad => ?_, ?_⟩
  · refine exec_refused calls takes rfl rfl (handleSetChannel_of_bad ?_)
    obtain bad | bad | bad | bad := bad
    · exact .inl (inRange_of_le bad)
    · exact .inr (receivedChannelConfig_of_bad (.inl (switchOf_of_le bad)))
    · exact .inr (receivedChannelConfig_of_bad (.inr (.inl (inRange_of_le bad))))
    · exact .inr (receivedChannelConfig_of_bad (.inr (.inr (faceOf_of_le bad))))
  · intro m on n side hm hon hn hside taken idle count
    have named : inRange 8 (byteAt f.body 0) = some m := inRange_of_val hm
    have received : receivedChannelConfig f.body = some ⟨on, n, side, headId, groups.toNat⟩ := by
      have switch : switchOf (byteAt f.body 1) = some on := by
        rw [← switchOf_toNat on, hon]
        rfl
      have number : inRange 4 (byteAt f.body 2) = some n := inRange_of_val hn
      have view : faceOf (byteAt f.body 3) = some side := by
        rw [← faceOf_faceCode side, hside]
        rfl
      simp only [receivedChannelConfig, switch, number, view]
      rfl
    have handles := handleSetChannel_of_good (s := s.take f) named received
    simp only [State.faceTaken_iff, State.take_channel, State.take_strand] at handles
    refine ⟨fun busy => ?_, fun free double same => ?_, fun free single => ?_⟩
    · rw [if_pos busy] at handles
      exact exec_refused calls takes rfl rfl handles
    · rw [if_neg (not_not.2 free), if_pos ⟨double, same⟩] at handles
      exact exec_refused calls takes rfl rfl handles
    · rw [if_neg (not_not.2 free), if_neg single] at handles
      exact exec_granted calls takes rfl rfl handles

end Sys2Proof.Machine

/-! START_STRAND (R11, R12): its checks in order, and the cast that it begins. -/

namespace Sys2Proof.Machine

/-! ### The faces of a billet that opens (R124) -/

/-- A face has no viewer when no enabled channel of the strand views it, and else one that does. -/
theorem State.viewer_cases (s : State) (n : StrandId) (f : Face) :
    (s.viewer n f = none ∧
        ∀ m, (s.channel m).cfg.enabled = true ∧ (s.channel m).cfg.strand = n → (s.channel m).cfg.face ≠ f) ∨
      ∃ m, s.viewer n f = some m ∧
        ((s.channel m).cfg.enabled = true ∧ (s.channel m).cfg.strand = n) ∧ (s.channel m).cfg.face = f := by
  cases found : s.viewer n f with
  | none =>
    refine .inl ⟨rfl, fun m on viewed => ?_⟩
    exact List.find?_eq_none.1 found m ((s.mem_channelsOf n m).2 on) (beq_iff_eq.2 viewed)
  | some m =>
    have viewed := List.find?_some (p := fun m => (s.channel m).cfg.face == f) found
    rw [beq_iff_eq] at viewed
    exact .inr ⟨m, rfl, (s.mem_channelsOf n m).1 (List.mem_of_find?_eq_some found), viewed⟩

/-- The entry of a face: absent when no enabled channel of the strand views it, and else of the first that does. -/
theorem State.openFace_cases (s : State) (n : StrandId) (f : Face) :
    (s.openFace n f = none ∧
        ∀ m, (s.channel m).cfg.enabled = true ∧ (s.channel m).cfg.strand = n → (s.channel m).cfg.face ≠ f) ∨
      ∃ m, ((s.channel m).cfg.enabled = true ∧ (s.channel m).cfg.strand = n) ∧ (s.channel m).cfg.face = f ∧
        s.openFace n f = some ⟨false, false, (s.channel m).hardLocked⟩ := by
  unfold State.openFace
  obtain ⟨none, blind⟩ | ⟨m, some, on, viewed⟩ := s.viewer_cases n f
  · exact .inl ⟨by rw [none]; rfl, blind⟩
  · exact .inr ⟨m, on, viewed, by rw [some]; rfl⟩

/-! ### The checks (R11) -/

theorem windowEmpty_iff (r : Recipe) (groups : Nat) :
    windowEmpty r groups = true ↔ 8 * groups < r.leftMargin + r.rightMargin + 8 := by
  rw [windowEmpty, columnCount]
  exact decide_eq_true_iff

theorem State.startConfigGood_iff (s : State) (n : StrandId) (r : Recipe) :
    s.startConfigGood n r = true ↔
      128 * (s.strand n).cfg.countsPerLine ≤ (s.strand n).cfg.torchOffset ∧
        (∃ m, (s.channel m).cfg.enabled = true ∧ (s.channel m).cfg.strand = n) ∧
        ∀ m, (s.channel m).cfg.enabled = true → (s.channel m).cfg.strand = n →
          r.leftMargin + r.rightMargin + 8 ≤ 8 * (s.channel m).cfg.groups := by
  have wide (m : ChannelId) : (!windowEmpty r (s.channel m).cfg.groups) = true ↔
      r.leftMargin + r.rightMargin + 8 ≤ 8 * (s.channel m).cfg.groups := by
    rw [Bool.not_eq_true', ← Bool.not_eq_true, windowEmpty_iff, Nat.not_lt]
  have some' : (!(s.channelsOf n).isEmpty) = true ↔
      ∃ m, (s.channel m).cfg.enabled = true ∧ (s.channel m).cfg.strand = n := by
    rw [Bool.not_eq_true', List.isEmpty_eq_false_iff_exists_mem]
    exact exists_congr fun m => s.mem_channelsOf n m
  simp only [State.startConfigGood, Bool.and_eq_true, decide_eq_true_iff, some', List.all_eq_true, wide,
    State.mem_channelsOf, and_imp, and_assoc]

section
variable {b : List Byte} {s : State}

theorem handleStartStrand_of_bad (bad : inRange 4 (byteAt b 0) = none ∨ inRange 16 (byteAt b 1) = none) :
    handleStartStrand b s = refuse .badArgument := by
  unfold handleStartStrand
  obtain bad | bad := bad
  · rw [bad]
  · rw [bad]
    cases inRange 4 (byteAt b 0) <;> rfl

section
variable {n : StrandId} {i : SlotId} (strand : inRange 4 (byteAt b 0) = some n) (slot : inRange 16 (byteAt b 1) = some i)
include strand slot

theorem handleStartStrand_of_casting (casting : (s.strand n).state ≠ .idle) :
    handleStartStrand b s = refuse .busy := by
  have busy : s.strandIdle n = false := Bool.eq_false_iff.2 (mt (s.strandIdle_iff n).1 casting)
  simp only [handleStartStrand, strand, slot, busy, Bool.not_false, if_true]

theorem handleStartStrand_of_writing (writing : (s.slot i).content = .writing) :
    handleStartStrand b s = refuse .busy := by
  simp only [handleStartStrand, strand, slot, writing, ite_self]

section
variable (idle : (s.strand n).state = .idle)
include idle

theorem handleStartStrand_of_empty (empty : (s.slot i).content = .empty) : handleStartStrand b s = refuse .empty := by
  simp only [handleStartStrand, strand, slot, empty, (s.strandIdle_iff n).2 idle, Bool.not_true, Bool.false_eq_true,
    if_false]

theorem handleStartStrand_of_valid {r : Recipe} (valid : (s.slot i).content = .valid r) :
    handleStartStrand b s =
      if s.startConfigGood n r then granted [] fun t => t.startStrand n ⟨0, i, (s.slot i).revision, false, r⟩
      else refuse .badConfig := by
  simp only [handleStartStrand, strand, slot, valid, (s.strandIdle_iff n).2 idle, Bool.not_true, Bool.false_eq_true,
    if_false]

end

end

end

/-- Settles O39: each clause is the first check that fails. -/
theorem startStrandChecksInOrder : Obligations.StartStrandChecksInOrder := by
  intro s tag strand slot f takes
  have calls : exec .startStrand s = .next (s.request 0x05 2 handleStartStrand) := rfl
  refine ⟨fun bad => ?_, fun n i hn hi => ?_⟩
  · exact exec_refused calls takes rfl rfl (handleStartStrand_of_bad (bad.imp inRange_of_le inRange_of_le))
  · have named : inRange 4 (byteAt f.body 0) = some n := inRange_of_val hn
    have chosen : inRange 16 (byteAt f.body 1) = some i := inRange_of_val hi
    refine ⟨fun busy => ?_, fun idle empty => ?_, fun r idle valid misfit => ?_⟩
    · refine exec_refused (code := .busy) calls takes rfl rfl ?_
      exact busy.elim (handleStartStrand_of_casting named chosen (s := s.take f))
        (handleStartStrand_of_writing named chosen (s := s.take f))
    · exact exec_refused calls takes rfl rfl (handleStartStrand_of_empty named chosen (s := s.take f) idle empty)
    · have bad : ¬s.startConfigGood n r = true := by
        rw [State.startConfigGood_iff]
        rintro ⟨torch, ⟨m, on⟩, wide⟩
        obtain low | none | ⟨m', enabled, at', narrow⟩ := misfit
        · omega
        · exact none m on
        · exact absurd (wide m' enabled at') (Nat.not_le.2 narrow)
      refine exec_refused (code := .badConfig) calls takes rfl rfl ?_
      rw [handleStartStrand_of_valid named chosen (s := s.take f) idle valid]
      exact if_neg bad

/-! ### The start (R12, R124) -/

/-- An enabled channel of the strand that starts is in WARMUP. -/
theorem startedChannel_hardLocked {c : Channel} (enabled : c.cfg.enabled = true) :
    (startedChannel c).hardLocked = false := by
  simp [startedChannel, enabled, Channel.hardLocked, LineProcessor.initial]

/-- The channels of a state in which strand n has just started. -/
def State.startedChannels (s : State) (n : StrandId) : Vector Channel 8 :=
  Vector.ofFn fun m : ChannelId =>
    if (s.channel m).cfg.strand = n then startedChannel (s.channel m) else s.channel m

theorem State.startedChannels_channel (s t : State) (n : StrandId) (m : ChannelId)
    (same : t.channels = s.startedChannels n) :
    t.channel m = if (s.channel m).cfg.strand = n then startedChannel (s.channel m) else s.channel m := by
  rw [State.channel, same]
  simp [State.startedChannels]

theorem State.startedChannels_cfg (s t : State) (n : StrandId) (m : ChannelId) (same : t.channels = s.startedChannels n) :
    (t.channel m).cfg = (s.channel m).cfg := by
  rw [State.startedChannels_channel s t n m same]
  split <;> rfl

/-- The first billet of a cast: an entry, all clear, for each face that is viewed. -/
theorem State.openFace_started (s t : State) (n : StrandId) (f : Face) (same : t.channels = s.startedChannels n) :
    t.openFace n f =
      if ∃ m, (s.channel m).cfg.enabled = true ∧ (s.channel m).cfg.strand = n ∧ (s.channel m).cfg.face = f then
        some ⟨false, false, false⟩
      else none := by
  have cases' := t.openFace_cases n f
  simp only [State.startedChannels_cfg s t n _ same] at cases'
  obtain ⟨open', blind⟩ | ⟨m, ⟨enabled, on⟩, face, open'⟩ := cases'
  · rw [open', if_neg]
    rintro ⟨m, enabled, on, face⟩
    exact blind m ⟨enabled, on⟩ face
  · rw [open', if_pos ⟨m, enabled, on, face⟩, State.startedChannels_channel s t n m same, if_pos on,
      startedChannel_hardLocked enabled]

/-- The strand that has just started, its first billet open (R12, R124). -/
def State.castBegun (s : State) (n : StrandId) (e : HistoryEntry) : Strand :=
  let viewed : Face → Option FaceFlags := fun side =>
    if ∃ m, (s.channel m).cfg.enabled = true ∧ (s.channel m).cfg.strand = n ∧ (s.channel m).cfg.face = side then
      some ⟨false, false, false⟩
    else none
  { startedStrand e (s.strand n) with
    billet :=
      some ⟨(s.strand n).billetCounter, 0, true, false, false,
        #v[viewed .faceA, viewed .faceB, viewed .faceC, viewed .faceD]⟩
    billetCounter := (s.strand n).billetCounter + 1 }

theorem State.openBillet_started (s t : State) (n : StrandId) (e : HistoryEntry)
    (channels : t.channels = s.startedChannels n) (own : t.strand n = startedStrand e (s.strand n)) :
    t.openBillet n 0 true = t.putStrand n (s.castBegun n e) := by
  rw [State.openBillet, State.modStrand_eq, own]
  simp only [State.openFace_started s t n _ channels]
  rfl

/-- A start written out: the strand, the channels that name it, and the notice. -/
theorem State.startStrand_written (s : State) (n : StrandId) (e : HistoryEntry) :
    s.startStrand n e =
      State.offer { s with strands := s.strands.set n (s.castBegun n e), channels := s.startedChannels n }
        .strandState (byte n.val ++ [0x01#8, 0x00#8] ++ le 4 0) := by
  have own : (s.putStrand n (startedStrand e (s.strand n))).strand n = startedStrand e (s.strand n) :=
    State.strand_putStrand_self ..
  have opened := State.openBillet_started s
    { s.putStrand n (startedStrand e (s.strand n)) with channels := s.startedChannels n } n e rfl own
  calc s.startStrand n e
    _ = (State.openBillet { s.putStrand n (startedStrand e (s.strand n)) with channels := s.startedChannels n }
          n 0 true).strandNotice n .start := State.startStrand_eq ..
    _ = (State.putStrand { s.putStrand n (startedStrand e (s.strand n)) with channels := s.startedChannels n } n
          (s.castBegun n e)).strandNotice n .start := by rw [opened]
    _ = _ := by
      rw [State.strandNotice, State.strand_putStrand_self]
      simp only [State.putStrand, Vector.set_set]
      rfl

/-- Settles O40: the start written out, on the answered state. -/
theorem startStrandBeginsACast : Obligations.StartStrandBeginsACast := by
  intro s tag n i r f x viewed takes idle valid torch enabled wide
  have calls : exec .startStrand s = .next (s.request 0x05 2 handleStartStrand) := rfl
  have named : inRange 4 (byteAt f.body 0) = some n := inRange_byte_strand n
  have chosen : inRange 16 (byteAt f.body 1) = some i := inRange_of_val (toNat_byte_of_lt (by omega)).symm
  have good : (s.take f).startConfigGood n r = true := (s.startConfigGood_iff n r).2 ⟨torch, enabled, wide⟩
  have handles := handleStartStrand_of_valid named chosen (s := s.take f) idle valid
  rw [if_pos good] at handles
  rw [exec_granted calls takes rfl rfl handles, State.startStrand_written, State.release_offer]
  rfl

end Sys2Proof.Machine

/-! SCHEDULE_GRADE and CLEAR_SCHEDULE (R157, R158), and RELEASE_CHANNEL (R86). -/

namespace Sys2Proof.Machine

/-! ### The grade schedule (R157, R158) -/

theorem outOfOrder_iff (x : Strand) (g : Nat) :
    outOfOrder x g = true ↔ g ≤ x.lastTrigger ∨ ∃ e, x.schedule.getLast? = some e ∧ g ≤ e.coord := by
  unfold outOfOrder
  cases x.schedule.getLast? with
  | none => simp
  | some e => simp

section
variable {b : List Byte} {s : State}

theorem handleScheduleGrade_of_bad (bad : inRange 4 (byteAt b 0) = none ∨ inRange 16 (byteAt b 5) = none) :
    handleScheduleGrade b s = refuse .badArgument := by
  unfold handleScheduleGrade
  obtain bad | bad := bad
  · rw [bad]
  · rw [bad]
    cases inRange 4 (byteAt b 0) <;> rfl

theorem handleScheduleGrade_of_named {n : StrandId} {i : SlotId} (strand : inRange 4 (byteAt b 0) = some n)
    (slot : inRange 16 (byteAt b 5) = some i) :
    handleScheduleGrade b s =
      if s.strandIdle n then refuse .notCasting
      else if outOfOrder (s.strand n) (u32At b 1) then refuse .order
      else if 4 ≤ (s.strand n).schedule.length then refuse .full
      else
        granted (byte ((s.strand n).schedule.length + 1)) fun t =>
          t.modStrand n fun y => { y with schedule := y.schedule ++ [⟨u32At b 1, i⟩] } := by
  simp only [handleScheduleGrade, strand, slot]
  rfl

theorem handleClearSchedule_of_bad (bad : inRange 4 (byteAt b 0) = none) :
    handleClearSchedule b s = refuse .badArgument := by
  simp only [handleClearSchedule, bad]

theorem handleClearSchedule_of_named {n : StrandId} (strand : inRange 4 (byteAt b 0) = some n) :
    handleClearSchedule b s =
      granted (byte (s.strand n).schedule.length) fun t => t.modStrand n fun x => { x with schedule := [] } := by
  simp only [handleClearSchedule, strand]

end

/-- Settles O42: each clause is a check of R157 in its turn, or the request taken. -/
theorem scheduleRequestsKeepTheOrder : Obligations.ScheduleRequestsKeepTheOrder := by
  rintro s tag strand slot g f clear small rfl rfl
  refine ⟨fun takes => ⟨fun bad => ?_, fun n i hn hi => ?_⟩, fun takes => ⟨fun bad => ?_, fun n hn => ?_⟩⟩
  · exact exec_refused rfl takes rfl rfl (handleScheduleGrade_of_bad (bad.imp inRange_of_le inRange_of_le))
  · intro x late
    have coord : u32At ([strand] ++ le 4 g ++ [slot]) 1 = g := four_bytes small
    have handles := handleScheduleGrade_of_named (s := s.take ⟨0x09#8, tag, [strand] ++ le 4 g ++ [slot]⟩)
      (b := [strand] ++ le 4 g ++ [slot]) (inRange_of_val hn) (inRange_of_val hi)
    rw [coord] at handles
    have casting (h : x.state ≠ .idle) : ¬s.strandIdle n = true := mt (s.strandIdle_iff n).1 h
    refine ⟨fun idle => ?_, fun on tardy => ?_, fun on timely full => ?_, fun on timely room => ?_⟩
    · exact exec_refused (code := .notCasting) rfl takes rfl rfl
        (handles.trans (if_pos ((s.strandIdle_iff n).2 idle)))
    · refine exec_refused (code := .order) rfl takes rfl rfl (handles.trans ?_)
      exact (if_neg (casting on)).trans (if_pos ((outOfOrder_iff x g).2 tardy))
    · refine exec_refused (code := .full) rfl takes rfl rfl (handles.trans ?_)
      exact (if_neg (casting on)).trans ((if_neg (mt (outOfOrder_iff x g).1 timely)).trans (if_pos full))
    · have taken := handles.trans <| (if_neg (casting on)).trans <|
        (if_neg (mt (outOfOrder_iff x g).1 timely)).trans (if_neg (Nat.not_le.2 room))
      exact exec_granted (c := .scheduleGrade) rfl takes rfl rfl taken
  · exact exec_refused rfl takes rfl rfl (handleClearSchedule_of_bad (inRange_of_le bad))
  · exact exec_granted rfl takes rfl rfl (handleClearSchedule_of_named (inRange_of_val hn))

/-! ### A table with every slot FREE has nothing to flush (R111) -/

theorem State.raiseChannel_zero (s : State) (m : ChannelId) (k : ChannelCounter) : s.raiseChannel m k 0 = s := by
  have same : s.channelCount m k + BitVec.ofNat 32 0 = s.channelCount m k := BitVec.add_zero _
  rw [State.raiseChannel_eq, same, State.channelCount]
  have kept : (s.channel m).stats.set (channelIndex k) (s.channel m).stats[channelIndex k] = (s.channel m).stats :=
    Vector.set_getElem_self _
  rw [kept, State.putChannel_self]

theorem State.flush_of_free {s : State} {m : ChannelId} (free : (s.channel m).tt.slots = Vector.replicate 16 none) :
    s.flush m = s := by
  have nothing : s.flushRecords m = [] := by
    rw [State.flushRecords, flushedTracks, free]
    rfl
  have same : freeTable (s.channel m).tt = (s.channel m).tt := by
    rw [freeTable, ← free]
  rw [State.flush_eq, nothing, State.modTt_eq, same, State.putChannel_self]
  exact (State.raiseChannel_zero ..).trans (State.raiseChannel_zero ..)

/-! ### RELEASE_CHANNEL (R86) -/

theorem State.windowGone_iff (s : State) (m : ChannelId) :
    s.windowGone m = true ↔
      ∃ h, (s.strandOf m).history.getLast? = some h ∧
        8 * (s.channel m).cfg.groups < h.recipe.leftMargin + h.recipe.rightMargin + 8 := by
  unfold State.windowGone newestRecipe
  cases (s.strandOf m).history.getLast? with
  | none => simp
  | some h => simp [windowEmpty_iff]

section
variable {b : List Byte} {s : State}

theorem handleReleaseChannel_of_bad (bad : inRange 8 (byteAt b 0) = none) :
    handleReleaseChannel b s = refuse .badArgument := by
  simp only [handleReleaseChannel, bad]

variable {m : ChannelId} (named : inRange 8 (byteAt b 0) = some m)
include named

theorem handleReleaseChannel_of_unlocked (unlocked : (s.channel m).hardLocked = false) :
    handleReleaseChannel b s = refuse .notLocked := by
  simp only [handleReleaseChannel, named, unlocked, Bool.false_eq_true, if_false]

theorem handleReleaseChannel_of_locked (locked : (s.channel m).hardLocked = true) :
    handleReleaseChannel b s =
      granted (byte (if s.windowGone m then 5 else 2)) fun t => t.releaseChannel m := by
  simp only [handleReleaseChannel, named, locked, if_true]
  rfl

end

theorem State.enterHardLock_of_free {s : State} {m : ChannelId} (cause : HardCause) (coord : Nat)
    (free : (s.channel m).tt.slots = Vector.replicate 16 none) :
    s.enterHardLock m cause coord =
      (((s.putChannel m
        { s.channel m with
          lp := hardLockedLp cause (s.channel m).lp
          stats := (s.channel m).stats.set 21 ((s.channel m).stats[21] + 1) }).modBillet (s.channel m).cfg.strand
        (modFace (s.channel m).cfg.face fun g => { g with hardLocked := true })).offer .channelLock
        (byte m.val ++ byte (s.channel m).cfg.strand.val ++ [0x00#8, 0x01#8] ++
          byte (lockCauseCode (hardCauseLock cause)) ++ le 4 coord)) := by
  rw [State.enterHardLock, State.flush_of_free free, State.modLp_eq, State.raiseChannel_eq, State.putChannel_putChannel,
    State.reportFace, State.lockNotice, State.channelCount]
  simp only [State.modBillet, State.modStrand_eq, State.putStrand_channel, State.channel_putChannel_self]
  rfl

theorem State.releaseChannel_of_wide {s : State} {m : ChannelId} (wide : s.windowGone m = false) :
    s.releaseChannel m =
      (s.putChannel m { s.channel m with lp := releasedLp (s.channel m).lp, tt := freeTable (s.channel m).tt }).offer
        .channelLock
        (byte m.val ++ byte (s.channel m).cfg.strand.val ++ [0x01#8, 0x01#8, 0x05#8] ++ le 4 (s.strandOf m).lastTrigger) := by
  rw [State.releaseChannel, wide, State.modLp_eq, State.modTt_eq, State.channel_putChannel_self,
    State.putChannel_putChannel, if_neg Bool.false_ne_true, State.lockNotice, State.channel_putChannel_self]
  rfl

theorem State.releaseChannel_of_narrow {s : State} {m : ChannelId} (narrow : s.windowGone m = true) :
    s.releaseChannel m =
      ((s.putChannel m
        { s.channel m with
          lp := { LineProcessor.initial (.hardLock .window) with log := (s.channel m).lp.log }
          tt := freeTable (s.channel m).tt
          stats := (s.channel m).stats.set 21 ((s.channel m).stats[21] + 1) }).modBillet (s.channel m).cfg.strand
        (modFace (s.channel m).cfg.face fun g => { g with hardLocked := true })).offer .channelLock
        (byte m.val ++ byte (s.channel m).cfg.strand.val ++ [0x00#8, 0x01#8, 0x03#8] ++
          le 4 (s.strandOf m).lastTrigger) := by
  rw [State.releaseChannel, if_pos narrow, State.modLp_eq, State.modTt_eq, State.channel_putChannel_self,
    State.putChannel_putChannel]
  rw [State.enterHardLock_of_free _ _ (by rw [State.channel_putChannel_self]; rfl), State.channel_putChannel_self,
    State.putChannel_putChannel]
  rfl

/-- Settles O43: the release, written out in each of its outcomes. -/
theorem releaseChannelLeavesHardLock : Obligations.ReleaseChannelLeavesHardLock := by
  intro s tag
  refine ⟨fun b bad takes => ?_, fun m => ?_⟩
  · exact exec_refused rfl takes rfl rfl (handleReleaseChannel_of_bad (inRange_of_le bad))
  · intro f c n x takes
    have named : inRange 8 (byteAt f.body 0) = some m := inRange_byte_channel m
    refine ⟨fun unlocked => ?_, fun cause locked => ?_⟩
    · have free : c.hardLocked = false :=
        Bool.eq_false_iff.2 fun h => absurd (c.hardLocked_iff.1 h) (not_exists.2 unlocked)
      exact exec_refused (code := .notLocked) rfl takes rfl rfl
        (handleReleaseChannel_of_unlocked named (s := s.take f) free)
    · have handles := handleReleaseChannel_of_locked named (s := s.take f) (c.hardLocked_iff.2 ⟨cause, locked⟩)
      refine ⟨fun wide => ?_, fun h newest narrow => ?_⟩
      · have stays : s.windowGone m = false := by
          rw [Bool.eq_false_iff, ne_eq, State.windowGone_iff]
          rintro ⟨h, newest, narrow⟩
          exact absurd (wide h newest) (Nat.not_le.2 narrow)
        have stays' : (s.take f).windowGone m = false := stays
        rw [stays', if_neg Bool.false_ne_true] at handles
        rw [exec_granted rfl takes rfl rfl handles,
          State.releaseChannel_of_wide (s := (s.take f).reply f ([0x00#8] ++ byte 2)) stays, State.release_offer]
        rfl
      · have gone : s.windowGone m = true := (s.windowGone_iff m).2 ⟨h, newest, narrow⟩
        have gone' : (s.take f).windowGone m = true := gone
        rw [gone', if_pos rfl] at handles
        rw [exec_granted rfl takes rfl rfl handles,
          State.releaseChannel_of_narrow (s := (s.take f).reply f ([0x00#8] ++ byte 5)) gone, State.release_offer]
        rfl

end Sys2Proof.Machine

/-! The recipe store (R146 to R152): STORE_RECIPE with its clamp mask, FREEZE_RECIPE, CLEAR_STORE, and completions. -/

namespace Sys2Proof.Machine

/-! ### Clamp masks (R146) -/

theorem clampMask_lt : ∀ {a b : List Nat}, a.length = b.length → clampMask a b < 2 ^ a.length
  | [], [], _ => Nat.one_pos
  | x :: as, y :: bs, same => by
    have tail := clampMask_lt (Nat.succ.inj same)
    have bit : differs x y ≤ 1 := by
      unfold differs
      split <;> omega
    rw [clampMask_cons, List.length_cons, Nat.pow_succ]
    omega

theorem clampMask_eq_zero : ∀ {a b : List Nat}, a.length = b.length → (clampMask a b = 0 ↔ b = a)
  | [], [], _ => by simp [clampMask_nil]
  | x :: as, y :: bs, same => by
    have tail := clampMask_eq_zero (Nat.succ.inj same)
    have bit : differs x y = 0 ↔ y = x := by
      unfold differs
      split <;> simp_all [eq_comm]
    rw [clampMask_cons, List.cons.injEq, ← bit, ← tail]
    omega

theorem clampMask_testBit : ∀ {a b : List Nat} {i : Nat}, a.length = b.length → i < a.length →
    ((clampMask a b).testBit i = true ↔ b[i]? ≠ a[i]?)
  | x :: as, y :: bs, 0, _, _ => by
    rw [clampMask_cons, Nat.testBit_zero]
    unfold differs
    split <;> simp_all [eq_comm]
  | x :: as, y :: bs, i + 1, same, lt => by
    have tail := clampMask_testBit (Nat.succ.inj same) (Nat.lt_of_succ_lt_succ lt)
    have half : (differs x y + 2 * clampMask as bs) / 2 = clampMask as bs := by
      unfold differs
      split <;> omega
    rw [clampMask_cons, Nat.testBit_succ, half, tail, List.getElem?_cons_succ, List.getElem?_cons_succ]

/-! ### The record of a STORE_RECIPE (R146) -/

theorem toList_of_eight {α : Type} (v : Vector α 8) :
    v.toList = [v[0], v[1], v[2], v[3], v[4], v[5], v[6], v[7]] := by
  apply List.ext_getElem
  · simp
  · intro i lt _
    have small : i < 8 := by simpa using lt
    interval_cases i <;> rfl

theorem vector_of_eight {α : Type} (v : Vector α 8) : v = #v[v[0], v[1], v[2], v[3], v[4], v[5], v[6], v[7]] :=
  Vector.toList_inj.1 (toList_of_eight v)

/-- The 37 bytes of a record one by one (12, "Recipe record"). -/
theorem recipeBytes_cons (r : Recipe) :
    recipeBytes r =
      r.name[0] :: r.name[1] :: r.name[2] :: r.name[3] :: r.name[4] :: r.name[5] :: r.name[6] :: r.name[7] ::
      BitVec.ofNat 8 (polarityCode r.polarity) :: BitVec.ofNat 8 r.leftMargin :: BitVec.ofNat 8 r.rightMargin ::
      BitVec.ofNat 8 r.shiftK :: BitVec.ofNat 8 r.hitThreshold :: BitVec.ofNat 8 (r.hitThreshold / 256) ::
      BitVec.ofNat 8 r.runBridge :: BitVec.ofNat 8 r.narrowMax ::
      BitVec.ofNat 8 r.markCrack :: BitVec.ofNat 8 (r.markCrack / 256) ::
      BitVec.ofNat 8 r.warmLines :: BitVec.ofNat 8 r.obscurePct ::
      BitVec.ofNat 8 r.softLockMax :: BitVec.ofNat 8 (r.softLockMax / 256) ::
      BitVec.ofNat 8 r.missedLimit :: BitVec.ofNat 8 r.gate :: BitVec.ofNat 8 r.confirmLines ::
      BitVec.ofNat 8 r.gapMax :: BitVec.ofNat 8 r.minDefectMm :: BitVec.ofNat 8 (r.minDefectMm / 256) ::
      BitVec.ofNat 8 r.rejectSingle :: BitVec.ofNat 8 (r.rejectSingle / 256) ::
      BitVec.ofNat 8 r.rejectTotal :: BitVec.ofNat 8 (r.rejectTotal / 256) ::
      BitVec.ofNat 8 r.conditionSingle :: BitVec.ofNat 8 (r.conditionSingle / 256) ::
      BitVec.ofNat 8 r.conditionCount :: BitVec.ofNat 8 r.transReject :: BitVec.ofNat 8 r.coverageMin :: [] := by
  unfold recipeBytes
  rw [toList_of_eight]
  simp only [byte, le, List.cons_append, List.nil_append]

theorem one_byte {v : Nat} (small : v < 256) : (BitVec.ofNat 8 v).toNat = v := toNat_byte_of_lt small

theorem receivedRecipe_recipeBytes {r : Recipe} (fits : r.Fits) : receivedRecipe (recipeBytes r) r.polarity = r := by
  obtain ⟨name, polarity, left, right, shift, hit, bridge, narrow, mark, warm, pct, soft, missed, gate, confirm, gap,
    least, rejectSingle, rejectTotal, conditionSingle, count, trans, cover⟩ := r
  obtain ⟨h1, h2, h3, h4, h5, h6, h7, h8, h9, h10, h11, h12, h13, h14, h15, h16, h17, h18, h19, h20, h21⟩ := fits
  rw [recipeBytes_cons]
  unfold receivedRecipe
  rw [Recipe.mk.injEq]
  exact ⟨(vector_of_eight name).symm, rfl, one_byte h1, one_byte h2, one_byte h3, two_bytes h4, one_byte h5, one_byte h6,
    two_bytes h7, one_byte h8, one_byte h9, two_bytes h10, one_byte h11, one_byte h12, one_byte h13, one_byte h14,
    two_bytes h15, two_bytes h16, two_bytes h17, two_bytes h18, one_byte h19, one_byte h20, one_byte h21⟩

theorem polarityOf_recipeBytes (r : Recipe) : polarityOf (byteAt (recipeBytes r) 8) = some r.polarity := by
  rw [recipeBytes_cons]
  cases own : r.polarity <;> rfl

theorem clampRecipe_eq {r : Recipe} (fits : r.Fits) : clampRecipe r = r.clamped := by
  obtain ⟨_, _, _, _, _, _, _, warm, _, _, missed, _, _, _, _, single, total, condition, count, trans, _⟩ := fits
  have whole {hi v : Nat} (small : v ≤ hi) : clamp 0 hi v = v := (clamp_zero hi v).trans (Nat.min_eq_right small)
  simp only [clampRecipe, Recipe.clamped, whole (Nat.le_of_lt_succ single), whole (Nat.le_of_lt_succ total),
    whole (Nat.le_of_lt_succ condition), whole (Nat.le_of_lt_succ count), whole (Nat.le_of_lt_succ trans),
    clamp_top (Nat.le_of_lt_succ warm), clamp_top (Nat.le_of_lt_succ missed), clamp_zero]
  simp only [clamp_eq]

theorem Recipe.clamped_eq_iff (r : Recipe) : r.clamped = r ↔ r.clamped.fields = r.fields := by
  obtain ⟨name, polarity, left, right, shift, hit, bridge, narrow, mark, warm, pct, soft, missed, gate, confirm, gap,
    least, rejectSingle, rejectTotal, conditionSingle, count, trans, cover⟩ := r
  simp only [Recipe.clamped, Recipe.fields, Recipe.mk.injEq, List.cons.injEq, true_and, and_true]

theorem limitsCross_iff (r : Recipe) :
    limitsCross r = true ↔ r.conditionSingle ≠ 0 ∧ r.rejectSingle ≠ 0 ∧ r.rejectSingle < r.conditionSingle := by
  simp [limitsCross, and_assoc]

theorem checkRecipe_recipeBytes {r : Recipe} (fits : r.Fits) :
    checkRecipe (recipeBytes r) =
      if limitsCross r.clamped then none else some (r.clamped, clampMask r.fields r.clamped.fields) := by
  simp only [checkRecipe, polarityOf_recipeBytes, receivedRecipe_recipeBytes fits, clampRecipe_eq fits]
  rfl

theorem checkRecipe_of_bad_polarity {b : List Byte} (bad : 2 ≤ byteAt b 8) : checkRecipe b = none := by
  have none' : polarityOf (byteAt b 8) = none := by
    unfold polarityOf
    split
    iterate 2 omega
    rfl
  simp only [checkRecipe, none']

section
variable {b : List Byte} {s : State}

theorem handleStoreRecipe_of_bad (bad : inRange 16 (byteAt b 0) = none ∨ checkRecipe (b.drop 1) = none) :
    handleStoreRecipe b s = refuse .badArgument := by
  unfold handleStoreRecipe
  obtain bad | bad := bad
  · rw [bad]
  · rw [bad]
    cases inRange 16 (byteAt b 0) <;> rfl

theorem handleStoreRecipe_of_good {i : SlotId} {r : Recipe} {mask : Nat} (named : inRange 16 (byteAt b 0) = some i)
    (good : checkRecipe (b.drop 1) = some (r, mask)) :
    handleStoreRecipe b s =
      if (s.slot i).frozen then refuse .frozen
      else if s.storeBusy then refuse .busy
      else granted (le 3 mask) fun t => (t.modSlot i fun x => { x with content := .writing }).setOp (.store i r) := by
  simp only [handleStoreRecipe, named, good]

end

/-- Settles O44: the checks in their turn, and the mask of the clamped record. -/
theorem storeRecipeBeginsAWrite : Obligations.StoreRecipeBeginsAWrite := by
  intro s tag slot r fits f kept cross
  have long : ([slot] ++ recipeBytes r).length = 38 := by rw [List.length_append, recipeBytes_length, List.length_singleton]
  have rest : ([slot] ++ recipeBytes r).drop 1 = recipeBytes r := by
    rw [List.singleton_append, List.drop_succ_cons, List.drop_zero]
  refine ⟨fun body whole bad takes => ?_, fun takes bad => ?_, fun takes i named level => ?_⟩
  · have refused : checkRecipe (body.drop 1) = none := by
      apply checkRecipe_of_bad_polarity
      rw [byteAt, List.getD_eq_getElem?_getD, List.getElem?_drop, ← List.getD_eq_getElem?_getD]
      exact bad
    exact exec_refused rfl takes rfl whole (handleStoreRecipe_of_bad (.inr refused))
  · have refused : inRange 16 (byteAt f.body 0) = none ∨ checkRecipe (f.body.drop 1) = none := by
      refine bad.imp inRange_of_le fun meets => ?_
      rw [rest]
      exact (checkRecipe_recipeBytes fits).trans (if_pos ((limitsCross_iff kept).2 meets))
    exact exec_refused rfl takes rfl long (handleStoreRecipe_of_bad refused)
  · have same : r.fields.length = kept.fields.length := rfl
    have good : checkRecipe (f.body.drop 1) = some (kept, clampMask r.fields kept.fields) := by
      rw [rest]
      exact (checkRecipe_recipeBytes fits).trans (if_neg (mt (limitsCross_iff kept).1 level))
    have handles := handleStoreRecipe_of_good (s := s.take f) (inRange_of_val named) good
    refine ⟨fun frozen => ?_, fun thawed busy => ?_, fun thawed free => ?_⟩
    · exact exec_refused (code := .frozen) rfl takes rfl long (handles.trans (if_pos frozen))
    · have busy' : s.storeBusy = true := by rwa [State.storeBusy, bne_iff_ne]
      exact exec_refused (code := .busy) rfl takes rfl long
        (handles.trans ((if_neg (Bool.eq_false_iff.1 thawed)).trans (if_pos busy')))
    · have free' : ¬s.storeBusy = true := Bool.eq_false_iff.1 (s.storeBusy_eq_false_iff.2 free)
      have taken := handles.trans <| (if_neg (Bool.eq_false_iff.1 thawed)).trans (if_neg free')
      refine ⟨clampMask r.fields kept.fields, exec_granted (c := .storeRecipe) rfl takes rfl long taken, ?_, ?_, ?_⟩
      · have fields : r.fields.length = 21 := rfl
        have below := clampMask_lt same
        rw [fields] at below
        exact below.trans_eq (by norm_num)
      · exact (clampMask_eq_zero same).trans r.clamped_eq_iff.symm
      · exact fun j => clampMask_testBit same j.isLt

/-! ### FREEZE_RECIPE and CLEAR_STORE (R151, R152) -/

section
variable {b : List Byte} {s : State}

theorem handleFreezeRecipe_of_bad (bad : inRange 16 (byteAt b 0) = none) :
    handleFreezeRecipe b s = refuse .badArgument := by
  simp only [handleFreezeRecipe, bad]

variable {i : SlotId} (named : inRange 16 (byteAt b 0) = some i)
include named

theorem handleFreezeRecipe_of_writing (writing : (s.slot i).content = .writing) :
    handleFreezeRecipe b s = refuse .busy := by
  simp only [handleFreezeRecipe, named, writing]

theorem handleFreezeRecipe_of_empty (empty : (s.slot i).content = .empty) : handleFreezeRecipe b s = refuse .empty := by
  simp only [handleFreezeRecipe, named, empty]

theorem handleFreezeRecipe_of_valid (valid : (s.slot i).content.isValid = true) :
    handleFreezeRecipe b s =
      if (s.slot i).frozen then granted [] id
      else if s.storeBusy then refuse .busy
      else granted [] fun t => t.setOp (.freeze i) := by
  cases content : (s.slot i).content with
  | valid r => simp only [handleFreezeRecipe, named, content]
  | empty => simp [content, SlotContent.isValid] at valid
  | writing => simp [content, SlotContent.isValid] at valid

end

/-- The store as a CLEAR begins (R152). -/
def State.clearBegun (s : State) : State := (s.modSlots fun x => { x with content := .writing }).setOp .clear

theorem State.clearBegun_frame (s : State) :
    s.clearBegun.release = { s.release with store := s.clearBegun.release.store } := by
  simp only [State.clearBegun, State.setOp, State.modSlots, State.release, State.modHli]

theorem State.clearBegun_slot (s : State) (i : SlotId) :
    s.clearBegun.release.slot i = { s.slot i with content := .writing } := Vector.getElem_ofFn ..

theorem State.allIdle_iff (s : State) : allStrands.all s.strandIdle = true ↔ ∀ n, (s.strand n).state = .idle := by
  rw [List.all_eq_true]
  exact ⟨fun h n => (s.strandIdle_iff n).1 (h n (mem_allStrands n)), fun h n _ => (s.strandIdle_iff n).2 (h n)⟩

theorem handleClearStore_eq (b : List Byte) (s : State) :
    handleClearStore b s =
      if ∀ n, (s.strand n).state = .idle then
        if s.storeBusy then refuse .busy
        else granted [] State.clearBegun
      else refuse .notIdle := by
  unfold handleClearStore
  by_cases idle : ∀ n, (s.strand n).state = .idle
  · rw [if_pos idle, s.allIdle_iff.2 idle]
    rfl
  · rw [if_neg idle, Bool.eq_false_iff.2 (mt s.allIdle_iff.1 idle)]
    rfl

/-- Settles O46: each clause is a check in its turn, or the operation begun. -/
theorem freezeAndClearBeginOperations : Obligations.FreezeAndClearBeginOperations := by
  intro s tag
  have busy_of (h : s.store.op ≠ .none) : s.storeBusy = true := by rwa [State.storeBusy, bne_iff_ne]
  have free_of (h : s.store.op = .none) : ¬s.storeBusy = true := Bool.eq_false_iff.1 (s.storeBusy_eq_false_iff.2 h)
  refine ⟨fun b bad takes => ?_, fun i => ?_, fun takes => ⟨?_, ?_, ?_⟩⟩
  · exact exec_refused rfl takes rfl rfl (handleFreezeRecipe_of_bad (inRange_of_le bad))
  · intro f takes
    have named : inRange 16 (byteAt f.body 0) = some i := inRange_of_val (toNat_byte_of_lt (by omega)).symm
    refine ⟨fun writing => ?_, fun empty => ?_, fun valid frozen => ?_, fun valid thawed busy => ?_,
      fun valid thawed free => ?_⟩
    · exact exec_refused (code := .busy) rfl takes rfl rfl (handleFreezeRecipe_of_writing named (s := s.take f) writing)
    · exact exec_refused (code := .empty) rfl takes rfl rfl (handleFreezeRecipe_of_empty named (s := s.take f) empty)
    · exact exec_granted_id (c := .freezeRecipe) rfl takes rfl rfl
        ((handleFreezeRecipe_of_valid named (s := s.take f) valid).trans (if_pos frozen))
    · exact exec_refused (code := .busy) rfl takes rfl rfl
        ((handleFreezeRecipe_of_valid named (s := s.take f) valid).trans
          ((if_neg (Bool.eq_false_iff.1 thawed)).trans (if_pos (busy_of busy))))
    · have taken := (handleFreezeRecipe_of_valid named (s := s.take f) valid).trans <|
        (if_neg (Bool.eq_false_iff.1 thawed)).trans (if_neg (free_of free))
      exact exec_granted (c := .freezeRecipe) rfl takes rfl rfl taken
  · rintro ⟨n, casting⟩
    exact exec_refused (code := .notIdle) rfl takes rfl rfl
      ((handleClearStore_eq [] _).trans (if_neg fun idle => casting (idle n)))
  · intro idle busy
    exact exec_refused (code := .busy) rfl takes rfl rfl
      ((handleClearStore_eq [] _).trans ((if_pos idle).trans (if_pos (busy_of busy))))
  · intro idle free
    have taken := (handleClearStore_eq [] (s.take ⟨0x0F#8, tag, []⟩)).trans <|
      (if_pos idle).trans (if_neg (free_of free))
    exact ⟨_, exec_granted (c := .clearStore) rfl takes rfl rfl taken, State.clearBegun_frame _, rfl,
      fun i => State.clearBegun_slot _ i⟩

/-! ### Completions (R149, R151, R152) -/

/-- A slot changed, the operation over, and its STORE_DONE notice. -/
theorem State.slotDone_written (s : State) (i : SlotId) (x : Slot) (op : Nat) (result : ResultCode) :
    ((s.putSlot i x).setOp .none).slotDone op i result =
      State.offer { s with store := ⟨s.store.slots.set i x, .none⟩ } .storeDone
        (byte op ++ byte i.val ++ byte (resultCode result) ++ byte (slotStateCode x.content) ++ le 2 x.revision.toNat) := by
  have own : ((s.putSlot i x).setOp .none).slot i = x := s.slot_putSlot_self i x
  rw [State.slotDone, State.storeDone, own]
  rfl

section
variable {s : State} (runs : s.Runs)
include runs

theorem exec_storeComplete {i : SlotId} {r : Recipe} (flight : s.store.op = .store i r) (verified : Bool) :
    exec (.storeComplete verified) s =
      .next (((s.putSlot i (storedSlot r verified (s.slot i))).setOp .none).slotDone 1 i (doneResult verified)) := by
  change execStoreComplete verified s = _
  rw [execStoreComplete, whileRunning_of_runs runs]
  simp only [flight]
  rfl

theorem exec_freezeComplete {i : SlotId} (flight : s.store.op = .freeze i) (verified : Bool) :
    exec (.freezeComplete verified) s =
      .next (((s.putSlot i { s.slot i with frozen := (s.slot i).frozen || verified }).setOp .none).slotDone 2 i
        (doneResult verified)) := by
  change execFreezeComplete verified s = _
  rw [execFreezeComplete, whileRunning_of_runs runs]
  simp only [flight]
  rfl

theorem exec_clearComplete (flight : s.store.op = .clear) :
    exec .clearComplete s = .next (((s.modSlots fun _ => clearedSlot).setOp .none).storeDone 3 0xFF .ok 0 0) := by
  change execClearComplete s = _
  rw [execClearComplete, whileRunning_of_runs runs]
  simp only [flight]

end

/-- Settles O47: each completion written out. -/
theorem storeOperationsComplete : Obligations.StoreOperationsComplete := by
  intro s runs
  refine ⟨fun i r flight => ?_, fun i flight valid thawed => ?_, fun flight => ?_⟩
  · intro next
    refine ⟨?_, ?_⟩
    · rw [exec_storeComplete runs flight, State.slotDone_written]
      rfl
    · rw [exec_storeComplete runs flight, State.slotDone_written]
      rfl
  · have code : slotStateCode (s.slot i).content = 2 := by
      cases content : (s.slot i).content with
      | valid r => rfl
      | empty => simp [content, SlotContent.isValid] at valid
      | writing => simp [content, SlotContent.isValid] at valid
    have same : s.store.slots.set i { s.slot i with frozen := (s.slot i).frozen || false } = s.store.slots := by
      rw [Bool.or_false]
      exact Vector.set_getElem_self _
    refine ⟨?_, ?_⟩
    · rw [exec_freezeComplete runs flight, State.slotDone_written, code, thawed]
      rfl
    · rw [exec_freezeComplete runs flight, State.slotDone_written, code, same]
      rfl
  · have cleared : (s.modSlots fun _ => clearedSlot).setOp .none =
        { s with store := ⟨Vector.replicate 16 ⟨.empty, false, 0⟩, .none⟩ } := by
      have slots : (Vector.ofFn fun _ => clearedSlot) = Vector.replicate 16 (⟨.empty, false, 0⟩ : Slot) :=
        Vector.ext fun i lt => by rw [Vector.getElem_ofFn, Vector.getElem_replicate]; rfl
      simp only [State.setOp, State.modSlots, slots]
    rw [exec_clearComplete runs flight, cleared, State.storeDone]
    rfl

end Sys2Proof.Machine

/-! The parts of a billet report (07, R130 to R137), as the statements describe them: coverage, limits, listed records
and face summaries. -/

namespace Sys2Proof.Machine

/-! ### The lines of a coverage log below and above K (R130) -/

/-- The lines of one segment one by one. -/
def Segment.cells (pitch : Nat) (seg : Segment) : List (Nat × Coverage) :=
  (List.range seg.count).map fun i => (seg.start + i * pitch, seg.cls)

theorem logCells_eq (pitch : Nat) (log : List Segment) : logCells pitch log = log.flatMap (Segment.cells pitch) := rfl

theorem linesBelow_le (pitch k : Nat) (seg : Segment) : linesBelow pitch k seg ≤ seg.count := by
  unfold linesBelow
  split
  · exact Nat.min_le_left ..
  · exact Nat.zero_le _

theorem lt_linesBelow_iff {pitch : Nat} (pos : 1 ≤ pitch) (k : Nat) (seg : Segment) {i : Nat} (lt : i < seg.count) :
    i < linesBelow pitch k seg ↔ seg.start + i * pitch < k := by
  unfold linesBelow
  split
  · next below =>
    have whole : i < (k - seg.start + pitch - 1) / pitch ↔ (i + 1) * pitch ≤ k - seg.start + pitch - 1 :=
      Nat.le_div_iff_mul_le pos
    rw [Nat.lt_min, whole, Nat.succ_mul]
    omega
  · next above => omega

/-- The lines of a segment split at K into those below, which come first, and those above. -/
theorem Segment.cells_split {pitch : Nat} (pos : 1 ≤ pitch) (k : Nat) (seg : Segment) :
    Segment.cells pitch { seg with count := linesBelow pitch k seg } =
        (seg.cells pitch).filter (fun x => decide (x.1 < k)) ∧
      Segment.cells pitch
          { seg with
            start := seg.start + linesBelow pitch k seg * pitch, count := seg.count - linesBelow pitch k seg } =
        (seg.cells pitch).filter (fun x => decide (k ≤ x.1)) := by
  have le := linesBelow_le pitch k seg
  have whole : seg.cells pitch =
      Segment.cells pitch { seg with count := linesBelow pitch k seg } ++
        Segment.cells pitch
          { seg with
            start := seg.start + linesBelow pitch k seg * pitch, count := seg.count - linesBelow pitch k seg } := by
    have count : seg.count = linesBelow pitch k seg + (seg.count - linesBelow pitch k seg) := by omega
    unfold Segment.cells
    conv_lhs => rw [count, List.range_add, List.map_append, List.map_map]
    refine congrArg _ (List.map_congr_left fun i _ => ?_)
    simp only [Function.comp_apply, Nat.add_mul, Nat.add_assoc]
  have low : ∀ x ∈ Segment.cells pitch { seg with count := linesBelow pitch k seg }, x.1 < k := by
    unfold Segment.cells
    simp only [List.mem_map, List.mem_range, forall_exists_index, and_imp]
    rintro x i lt rfl
    exact (lt_linesBelow_iff pos k seg (lt.trans_le le)).1 lt
  have high : ∀ x ∈ Segment.cells pitch
      { seg with start := seg.start + linesBelow pitch k seg * pitch, count := seg.count - linesBelow pitch k seg },
      k ≤ x.1 := by
    unfold Segment.cells
    simp only [List.mem_map, List.mem_range, forall_exists_index, and_imp]
    rintro x i lt rfl
    have past := mt (lt_linesBelow_iff pos k seg (i := linesBelow pitch k seg + i) (by omega)).2 (by omega)
    rw [Nat.add_mul, ← Nat.add_assoc] at past
    exact Nat.not_lt.1 past
  rw [whole, List.filter_append, List.filter_append]
  constructor
  · rw [List.filter_eq_self.2 fun x mem => decide_eq_true (low x mem),
      List.filter_eq_nil_iff.2 fun x mem => by simpa using high x mem, List.append_nil]
  · rw [List.filter_eq_self.2 fun x mem => decide_eq_true (high x mem),
      List.filter_eq_nil_iff.2 fun x mem => by simpa using low x mem, List.nil_append]

theorem Segment.cells_of_empty {pitch : Nat} {seg : Segment} (empty : seg.count = 0) : seg.cells pitch = [] := by
  rw [Segment.cells, empty]
  rfl

/-- Segments without lines do not count. -/
theorem logCells_filter (pitch : Nat) (log : List Segment) :
    logCells pitch (log.filter fun seg => seg.count != 0) = logCells pitch log := by
  rw [logCells_eq, logCells_eq]
  induction log with
  | nil => rfl
  | cons seg log ih =>
    rw [List.filter_cons]
    split
    · rw [List.flatMap_cons, List.flatMap_cons, ih]
    · next empty =>
      rw [List.flatMap_cons, ih, Segment.cells_of_empty (by simpa using empty), List.nil_append]

theorem logCells_coverageBelow {pitch : Nat} (pos : 1 ≤ pitch) (k : Nat) (log : List Segment) :
    logCells pitch (coverageBelow pitch k log) = (logCells pitch log).filter fun x => decide (x.1 < k) := by
  rw [coverageBelow, logCells_filter, logCells_eq, logCells_eq, List.flatMap_map, List.filter_flatMap]
  exact List.flatMap_congr fun seg _ => (seg.cells_split pos k).1

theorem logCells_coverageAbove {pitch : Nat} (pos : 1 ≤ pitch) (k : Nat) (log : List Segment) :
    logCells pitch (coverageAbove pitch k log) = (logCells pitch log).filter fun x => decide (k ≤ x.1) := by
  rw [coverageAbove, logCells_filter, logCells_eq, logCells_eq, List.flatMap_map, List.filter_flatMap]
  exact List.flatMap_congr fun seg _ => (seg.cells_split pos k).2

theorem coverageAbove_start {pitch : Nat} (pos : 1 ≤ pitch) (k : Nat) (log : List Segment) :
    ∀ seg ∈ coverageAbove pitch k log, k ≤ seg.start := by
  unfold coverageAbove
  simp only [List.mem_filter, List.mem_map, bne_iff_ne, and_imp, forall_exists_index]
  rintro _ seg - rfl left
  have lt : linesBelow pitch k seg < seg.count := by
    dsimp only at left
    omega
  exact Nat.not_lt.1 (mt (lt_linesBelow_iff pos k seg lt).2 (Nat.lt_irrefl _))

theorem countLines_eq (pitch : Nat) (cls : Coverage) (log : List Segment) :
    countLines cls log = ((logCells pitch log).filter fun x => decide (x.2 = cls)).length := by
  unfold countLines
  rw [logCells_eq]
  induction log with
  | nil => rfl
  | cons seg log ih =>
    rw [List.flatMap_cons, List.filter_append, List.length_append, ← ih, List.filter_cons]
    by_cases own : seg.cls = cls
    · simp [own, Segment.cells, List.filter_map, Function.comp_def]
    · simp [own, Segment.cells, List.filter_map, Function.comp_def]

/-! ### The limits of a report (R137) -/

theorem billetLimits_cons (e : HistoryEntry) (rest : List HistoryEntry) :
    billetLimits (e :: rest) = strictest (limitsOf e.recipe) (billetLimits rest) := by
  cases rest with
  | cons _ _ => rfl
  | nil =>
    have none (v : Nat) : strictestLimit v 0 = v := by
      unfold strictestLimit
      split <;> simp_all
    simp only [billetLimits, strictest, none, Nat.max_zero]

theorem SmallestSet.cons {b : Nat} {values : List Nat} (h : SmallestSet b values) (a : Nat) :
    SmallestSet (strictestLimit a b) (a :: values) := by
  obtain ⟨zero, mem, least⟩ := h
  unfold SmallestSet strictestLimit
  rw [List.forall_mem_cons, List.forall_mem_cons, List.mem_cons]
  by_cases ha : a = 0
  · rw [if_pos ha]
    exact ⟨zero.trans (iff_and_self.2 fun _ => ha), fun on => .inr (mem on), fun on => absurd ha on, least⟩
  · rw [if_neg ha]
    by_cases hb : b = 0
    · rw [if_pos hb]
      have none := zero.1 hb
      exact ⟨⟨fun h => absurd h ha, fun h => h.1⟩, fun _ => .inl rfl, fun _ => le_rfl, fun v hv on => absurd (none v hv) on⟩
    · rw [if_neg hb]
      refine ⟨⟨fun h => ?_, fun h => absurd h.1 ha⟩, fun _ => ?_, fun _ => min_le_left .., fun v hv on =>
        (min_le_right ..).trans (least v hv on)⟩
      · omega
      · rcases min_choice a b with left | right
        · exact .inl left
        · rw [right]
          exact .inr (mem hb)

theorem Greatest.cons {b : Nat} {values : List Nat} (h : Greatest b values) (a : Nat) :
    Greatest (max a b) (a :: values) := by
  obtain ⟨mem, most⟩ := h
  unfold Greatest
  rw [List.forall_mem_cons, List.mem_cons]
  refine ⟨?_, Nat.le_max_left .., fun v hv => (most v hv).trans (Nat.le_max_right ..)⟩
  rcases max_choice a b with left | right
  · exact .inr (.inl left)
  · rw [right]
    exact mem.imp id .inr

theorem billetLimits_strictestOf (taken : List HistoryEntry) : (billetLimits taken).StrictestOf taken := by
  induction taken with
  | nil => exact ⟨by simp [SmallestSet, billetLimits], by simp [SmallestSet, billetLimits],
      by simp [SmallestSet, billetLimits], by simp [SmallestSet, billetLimits], by simp [SmallestSet, billetLimits],
      by simp [Greatest, billetLimits]⟩
  | cons e rest ih =>
    obtain ⟨single, total, condition, count, trans, cover⟩ := ih
    rw [billetLimits_cons]
    exact ⟨single.cons _, total.cons _, condition.cons _, count.cons _, trans.cons _, cover.cons _⟩

/-! ### Listed records (R136) -/

/-- Record a does not come after record b: longer in counts, or as long and of no greater start. -/
def NotAfter (a b : DefectRecord) : Prop :=
  b.stop - b.start < a.stop - a.start ∨ b.stop - b.start = a.stop - a.start ∧ a.start ≤ b.start

theorem listedBefore_iff (a b : DefectRecord) :
    listedBefore a b = true ↔
      b.stop - b.start < a.stop - a.start ∨ a.stop - a.start = b.stop - b.start ∧ a.start < b.start := by
  simp [listedBefore]

theorem NotAfter.of_before {a b : DefectRecord} (h : listedBefore a b = true) : NotAfter a b := by
  rw [listedBefore_iff] at h
  unfold NotAfter
  omega

theorem NotAfter.of_not_before {a b : DefectRecord} (h : ¬listedBefore a b = true) : NotAfter b a := by
  rw [listedBefore_iff] at h
  unfold NotAfter
  omega

theorem NotAfter.trans {a b c : DefectRecord} (h : NotAfter a b) (h' : NotAfter b c) : NotAfter a c := by
  unfold NotAfter at h h' ⊢
  omega

theorem mem_insertListed (r x : DefectRecord) (xs : List DefectRecord) :
    x ∈ insertListed r xs ↔ x = r ∨ x ∈ xs := by
  induction xs with
  | nil => simp [insertListed]
  | cons y ys ih =>
    unfold insertListed
    split
    · rw [List.mem_cons, ih, List.mem_cons]
      exact or_left_comm
    · rw [List.mem_cons]

theorem insertListed_pairwise (r : DefectRecord) {xs : List DefectRecord} (sorted : xs.Pairwise NotAfter) :
    (insertListed r xs).Pairwise NotAfter := by
  induction xs with
  | nil => exact List.pairwise_singleton ..
  | cons y ys ih =>
    obtain ⟨head, tail⟩ := List.pairwise_cons.1 sorted
    unfold insertListed
    split
    · next before =>
      refine List.pairwise_cons.2 ⟨fun x mem => ?_, ih tail⟩
      rcases (mem_insertListed r x ys).1 mem with rfl | mem
      · exact .of_before before
      · exact head x mem
    · next not =>
      refine List.pairwise_cons.2 ⟨fun x mem => ?_, sorted⟩
      rcases List.mem_cons.1 mem with rfl | mem
      · exact .of_not_before not
      · exact (NotAfter.of_not_before not).trans (head x mem)

/-- Among records of one length and start an insertion comes first (R136). -/
theorem filter_insertListed {p : DefectRecord → Bool} (r : DefectRecord) (xs : List DefectRecord)
    (apart : ∀ x, listedBefore x r = true → p r = true → p x = false) :
    (insertListed r xs).filter p = (r :: xs).filter p := by
  induction xs with
  | nil => rfl
  | cons y ys ih =>
    unfold insertListed
    split
    · next before =>
      rw [List.filter_cons, ih]
      cases own : p r with
      | false => simp [List.filter_cons, own]
      | true => simp [own, apart y before own]
    · rfl

theorem listedOrder_lists (closing : List DefectRecord) : Lists closing ((listedOrder closing).take listLimit) := by
  refine ⟨listedOrder closing, rfl, ?_, fun counts start => ?_⟩
  · change (listedOrder closing).Pairwise NotAfter
    induction closing with
    | nil => exact .nil
    | cons r rs ih => exact insertListed_pairwise r ih
  · dsimp only
    induction closing with
    | nil => rfl
    | cons r rs ih =>
      rw [listedOrder, filter_insertListed, List.filter_cons, List.filter_cons, ih]
      intro x before alike
      rw [listedBefore_iff] at before
      simp only [Bool.and_eq_true, decide_eq_true_eq] at alike
      simp only [Bool.and_eq_false_iff, decide_eq_false_iff_not]
      omega

/-! ### Face summaries (R135) -/

theorem lengthBin_eq (mm : Nat) : lengthBin mm = (binOf mm).val := by
  unfold lengthBin binOf
  have bin : mm < 20 ∨ (20 ≤ mm ∧ mm < 50) ∨ (50 ≤ mm ∧ mm < 100) ∨ (100 ≤ mm ∧ mm < 200) ∨ 200 ≤ mm := by omega
  obtain below | ⟨low, high⟩ | ⟨low, high⟩ | ⟨low, high⟩ | above := bin
  all_goals
    simp (disch := omega) only [List.filter_cons, List.filter_nil, decide_eq_true_eq, if_pos, if_neg]
    rfl

theorem foldl_max_greatest (values : List Nat) : Greatest (values.foldl max 0) values := by
  have general (a : Nat) : ∀ values : List Nat,
      (values.foldl max a = a ∨ values.foldl max a ∈ values) ∧ a ≤ values.foldl max a ∧
        ∀ v ∈ values, v ≤ values.foldl max a := by
    intro values
    induction values generalizing a with
    | nil => simp
    | cons v vs ih =>
      obtain ⟨mem, from_le, most⟩ := ih (max a v)
      rw [List.foldl_cons, List.forall_mem_cons, List.mem_cons]
      refine ⟨?_, (Nat.le_max_left ..).trans from_le, (Nat.le_max_right ..).trans from_le, most⟩
      rcases mem with own | mem
      · rw [own]
        rcases max_choice a v with left | right
        · exact .inl left
        · exact .inr (.inl right)
      · exact .inr (.inr mem)
  exact ⟨(general 0 values).1, (general 0 values).2.2⟩

theorem isLongitudinal_eq_false_iff (r : DefectRecord) : isLongitudinal r = false ↔ r.kind = .transverse := by
  unfold isLongitudinal
  cases r.kind <;> simp

theorem faceSummary_sums (f : Face) (m : ChannelId) (c : Channel) (flags : FaceFlags) (closing : List DefectRecord)
    (pitch tail : Nat) (face : c.cfg.face = f) :
    (faceSummary f m flags closing (coverageBelow pitch tail c.lp.log)).Sums m c flags pitch tail closing := by
  have mine : (closing.filter fun r => r.channel == m) = closing.filter fun r => decide (r.channel = m) := rfl
  refine ⟨rfl, face.symm, rfl, rfl, rfl, foldl_max_greatest _, fun i => ?_, ?_, fun pos => ?_⟩
  · have bins : (faceSummary f m flags closing (coverageBelow pitch tail c.lp.log)).bins[i] =
        ((longLengths (closing.filter fun r => r.channel == m)).filter fun mm => binOf mm == i).length :=
      Vector.getElem_ofFn ..
    rw [bins]
    refine congrArg List.length (List.filter_congr fun mm _ => ?_)
    rw [lengthBin_eq, Bool.eq_iff_iff, beq_iff_eq, decide_eq_true_iff, Fin.ext_iff]
  · refine congrArg List.length (List.filter_congr fun r _ => ?_)
    rw [Bool.eq_iff_iff, Bool.not_eq_true', isLongitudinal_eq_false_iff, decide_eq_true_iff]
  · have lines (cls : Coverage) : countLines cls (coverageBelow pitch tail c.lp.log) =
        ((logCells pitch c.lp.log).filter fun x => decide (x.1 < tail) && decide (x.2 = cls)).length := by
      rw [countLines_eq pitch, logCells_coverageBelow pos, List.filter_filter]
      simp only [Bool.and_comm]
    exact ⟨lines _, lines _, lines _⟩

end Sys2Proof.Machine

/-! The report of a closed billet, whole (07, R130 to R141). -/

namespace Sys2Proof.Machine

/-! ### The faces of a report (R134, R135) -/

theorem faceIndex_lt_iff_pairwise : allFaces.Pairwise fun f g => faceIndex f < faceIndex g := by decide

theorem mem_allFaces (f : Face) : f ∈ allFaces := by cases f <;> decide

/-- The summary of face f, viewed by channel m. -/
abbrev State.summary (s : State) (n : StrandId) (b : OpenBillet) (tail : Nat) (closing : List DefectRecord) (f : Face)
    (m : ChannelId) : FaceSummary :=
  faceSummary f m (b.faces[faceIndex f].getD ⟨false, false, false⟩) closing
    (coverageBelow (s.strand n).cfg.countsPerLine tail (s.channel m).lp.log)

theorem State.mem_summaries {s : State} {n : StrandId} {b : OpenBillet} {tail : Nat} {closing : List DefectRecord}
    {x : FaceSummary} :
    x ∈ s.summaries n b tail closing ↔ ∃ f m, s.viewer n f = some m ∧ s.summary n b tail closing f m = x := by
  simp only [State.summaries, List.mem_filterMap, mem_allFaces, true_and, Option.map_eq_some_iff]

theorem State.summaries_facesOf (s : State) (n : StrandId) (b : OpenBillet) (tail : Nat) (closing : List DefectRecord) :
    FacesOf n b tail closing s (s.summaries n b tail closing) := by
  refine ⟨?_, fun m on => ?_, fun f mem => ?_⟩
  · rw [List.pairwise_map]
    refine List.Pairwise.filterMap (R := fun f g => faceIndex f < faceIndex g) _ ?_ faceIndex_lt_iff_pairwise
    intro f g lt x hx y hy
    obtain ⟨m, -, rfl⟩ := Option.map_eq_some_iff.1 hx
    obtain ⟨m', -, rfl⟩ := Option.map_eq_some_iff.1 hy
    exact lt
  · obtain ⟨-, blind⟩ | ⟨m', viewer, -, -⟩ := s.viewer_cases n (s.channel m).cfg.face
    · exact absurd rfl (blind m on)
    · exact ⟨_, State.mem_summaries.2 ⟨_, m', viewer, rfl⟩, rfl⟩
  · obtain ⟨g, m, viewer, rfl⟩ := State.mem_summaries.1 mem
    obtain ⟨none, -⟩ | ⟨m', viewer', on, face⟩ := s.viewer_cases n g
    · rw [none] at viewer
      exact absurd viewer nofun
    · obtain rfl : m' = m := Option.some.inj (viewer'.symm.trans viewer)
      exact ⟨m', on, faceSummary_sums g m' (s.channel m') _ closing _ tail face⟩

/-! ### The report queue and its notices (R140, R141) -/

theorem State.offer_hli_congr {s t : State} (same : t.hli = s.hli) (k : NoticeKind) (body : List Byte) :
    (t.offer k body).hli = (s.offer k body).hli := by
  unfold State.offer State.freeOutput
  rw [same]
  split
  · split
    · simp only [State.modHli, same]
    · exact same
  · exact same

theorem State.offers_hli_congr {s t : State} (same : t.hli = s.hli) (notices : List (NoticeKind × List Byte)) :
    (t.offers notices).hli = (s.offers notices).hli := by
  induction notices generalizing s t with
  | nil => exact same
  | cons x rest ih => exact ih (State.offer_hli_congr same x.1 x.2)

/-- How a notice names a report: strand, billet number and grade (12). -/
def reportName (x : BilletReport) : List Byte := byte x.strand.val ++ le 2 x.number.toNat ++ byte (gradeCode x.grade)

/-- The report that stands in the queue after a push (R141). -/
def State.queued (s : State) (rep : BilletReport) : BilletReport :=
  if s.rq.length < 8 then rep else withPriorLoss rep

section
variable (s : State) (rep : BilletReport)

theorem State.pushReport_of_room (room : s.rq.length < 8) :
    s.pushReport rep =
      State.offer { s with rq := s.rq ++ [rep] } .billetReady (reportName rep ++ byte (s.rq.length + 1)) := by
  have length : (s.rq ++ [rep]).length = s.rq.length + 1 := List.length_append
  unfold State.pushReport State.addReport State.billetReady
  rw [if_pos (show s.rq.length < reportCapacity from room)]
  dsimp only
  rw [length]
  rfl

theorem State.pushReport_of_full {old : BilletReport} {rest : List BilletReport} (held : s.rq = old :: rest)
    (full : ¬s.rq.length < 8) :
    s.pushReport rep =
      State.offer
        { (State.raiseLink { s with rq := rest } .reportLost).offer .reportLost (reportName old) with
          rq := rest ++ [withPriorLoss rep] }
        .billetReady (reportName rep ++ byte (rest.length + 1)) := by
  have length : (rest ++ [withPriorLoss rep]).length = rest.length + 1 := List.length_append
  unfold State.pushReport State.addReport State.billetReady State.discardOldest
  rw [if_neg (show ¬s.rq.length < reportCapacity from full), held]
  dsimp only
  rw [State.offer_rq]
  change State.offer _ _ (_ ++ byte (rest ++ [withPriorLoss rep]).length) = _
  rw [length]
  rfl

theorem State.reportNotices_of_room (room : s.rq.length < 8) :
    s.reportNotices rep = [(.billetReady, reportName rep ++ byte (s.rq.length + 1))] := by
  simp only [State.reportNotices, if_pos room]
  rfl

theorem State.reportNotices_of_full {old : BilletReport} {rest : List BilletReport} (held : s.rq = old :: rest)
    (full : ¬s.rq.length < 8) :
    s.reportNotices rep =
      [(.reportLost, reportName old), (.billetReady, reportName rep ++ byte (rest.length + 1))] := by
  have full' : ¬(old :: rest).length < 8 := held ▸ full
  simp only [State.reportNotices, held, if_neg full']
  rfl

theorem State.pushReport_reportLost :
    (s.pushReport rep).linkCount .reportLost = s.linkCount .reportLost + if s.rq.length < 8 then 0 else 1 := by
  have lost (t : State) (k : NoticeKind) (body : List Byte) :
      (t.offer k body).linkCount .reportLost = t.linkCount .reportLost := t.offer_linkCount k body _ (by decide)
  by_cases room : s.rq.length < 8
  · rw [State.pushReport_of_room s rep room, lost, if_pos room]
    exact (BitVec.add_zero _).symm
  · obtain ⟨old, rest, held⟩ := List.exists_cons_of_length_pos (l := s.rq) (by omega)
    rw [State.pushReport_of_full s rep held room, lost, if_neg room]
    exact (lost ..).trans (Vector.getElem_set_self ..)

/-- The link takes the notices of the report pushed, and no other. -/
theorem State.pushReport_hli : (s.pushReport rep).hli = (s.offers (s.reportNotices (s.queued rep))).hli := by
  by_cases room : s.rq.length < 8
  · rw [State.queued, if_pos room, State.pushReport_of_room s rep room, State.reportNotices_of_room s _ room]
    exact State.offer_hli_congr (s := s) (t := { s with rq := s.rq ++ [rep] }) rfl _ _
  · obtain ⟨old, rest, held⟩ := List.exists_cons_of_length_pos (l := s.rq) (by omega)
    rw [State.queued, if_neg room, State.pushReport_of_full s rep held room, State.reportNotices_of_full s _ held room]
    have lost := State.offer_hli_congr (s := s) (t := State.raiseLink { s with rq := rest } .reportLost) rfl
      .reportLost (reportName old)
    exact State.offer_hli_congr (s := s.offer .reportLost (reportName old))
      (t := { (State.raiseLink { s with rq := rest } .reportLost).offer .reportLost (reportName old) with
        rq := rest ++ [withPriorLoss rep] }) lost _ _

end

/-! ### The close counters (R139) -/

theorem gradeCounter_no_bin (g : Grade) (i : Fin 5) : gradeCounter g ≠ binCounter i := by
  cases g <;> fin_cases i <;> decide

theorem binCounter_inj {i j : Fin 5} : binCounter i = binCounter j ↔ i = j := by
  fin_cases i <;> fin_cases j <;> decide

theorem closeCount_billetsClosed (g : Grade) (closing : List DefectRecord) :
    closeCount g closing .billetsClosed = 1 := by
  rw [closeCount_of_no_bin (by decide)]
  cases g <;> rfl

theorem closeCount_grade (g h : Grade) (closing : List DefectRecord) :
    closeCount h closing (gradeCounter g) = if g = h then 1 else 0 := by
  rw [closeCount_of_no_bin (gradeCounter_no_bin g)]
  cases g <;> cases h <;> rfl

theorem closeCount_bin (g : Grade) (closing : List DefectRecord) (i : Fin 5) :
    closeCount g closing (binCounter i) =
      BitVec.ofNat 32 ((longLengths closing).filter fun mm => decide (lengthBin mm = i.val)).length := by
  have apart : binCounter i ≠ .billetsClosed := by fin_cases i <;> decide
  have bins : ((closing.filter isLongitudinal).filter fun r => decide (binCounter i = binCounter (binOf r.lengthMm))).length =
      ((longLengths closing).filter fun mm => decide (lengthBin mm = i.val)).length := by
    unfold longLengths
    rw [List.filter_map, List.length_map]
    refine congrArg List.length (List.filter_congr fun r _ => ?_)
    rw [Function.comp_apply, lengthBin_eq, decide_eq_decide, binCounter_inj, eq_comm, Fin.ext_iff]
  rw [closeCount, bins, if_neg apart, if_neg (gradeCounter_no_bin g i).symm, add_zero, zero_add]

/-- A counter that no close raises. -/
theorem closeCount_of_other {c : StrandCounter} (other : ofClose c = false) (g : Grade) (closing : List DefectRecord) :
    closeCount g closing c = 0 := by
  have bin (i : Fin 5) : c ≠ binCounter i := by
    rintro rfl
    fin_cases i <;> cases other
  rw [closeCount_of_no_bin bin, if_neg, if_neg]
  · rfl
  · rintro rfl
    cases g <;> cases other
  · rintro rfl
    cases other

theorem closeCount_defectDrop (g : Grade) (closing : List DefectRecord) : closeCount g closing .defectDrop = 0 := by
  rw [closeCount_of_no_bin (by decide)]
  cases g <;> rfl

theorem closeCount_tailDiscarded (g : Grade) (closing : List DefectRecord) : closeCount g closing .tailDiscarded = 0 := by
  rw [closeCount_of_no_bin (by decide)]
  cases g <;> rfl

/-! ### The report of a close -/

section
variable {s : State} {n : StrandId} {b : OpenBillet} (tail : Nat) (stopped : Bool) (closing : List DefectRecord)

theorem BilletReport.queued_eq (rep : BilletReport) (clean : rep.flags.priorLoss = false) :
    s.queued rep = { rep with flags := { rep.flags with priorLoss := decide (8 ≤ s.rq.length) } } := by
  unfold State.queued
  by_cases room : s.rq.length < 8
  · rw [if_pos room, decide_eq_false (Nat.not_le.2 room), ← clean]
  · rw [if_neg room, decide_eq_true (Nat.not_lt.1 room)]
    rfl

theorem State.reportOf_gradedInOrder : (s.queued (s.reportOf n b tail stopped closing)).GradedInOrder := by
  have graded : (s.reportOf n b tail stopped closing).GradedInOrder := buildReport_gradedInOrder ..
  unfold State.queued
  split
  · exact graded
  · exact graded.withPriorLoss

/-- The close pushes the report in a state that has the queue, the link and the counters of before it. -/
theorem State.closeBillet_pushes (opened : (s.strand n).billet = some b) :
    ∃ u : State, u.rq = s.rq ∧ u.hli = s.hli ∧ u.linkStats = s.linkStats ∧
      s.closeBillet n tail stopped closing = u.pushReport (s.reportOf n b tail stopped closing) := by
  have covered := foldl_keeps (P := fun u : State => u.rq = s.rq ∧ u.hli = s.hli ∧ u.linkStats = s.linkStats)
    (f := fun t m => t.takeCoverage (s.strand n).cfg.countsPerLine tail m) (s.channelsOf n) s ⟨rfl, rfl, rfl⟩
    fun _ _ _ hu => hu
  unfold State.closeBillet
  rw [opened]
  dsimp only
  rw [State.countClose_eq]
  obtain ⟨rq, hli, stats⟩ := covered
  refine ⟨_, ?_, ?_, ?_, rfl⟩
  · exact rq
  · exact hli
  · exact stats

/-- What a close makes of the open billet (R130 to R141). -/
theorem State.closeBillet_report (opened : (s.strand n).billet = some b) :
    ReportOf n b b.defectsDropped tail stopped closing s (s.closeBillet n tail stopped closing)
        (s.queued (s.reportOf n b tail stopped closing)) ∧
      (s.closeBillet n tail stopped closing).hli =
        (s.offers (s.reportNotices (s.queued (s.reportOf n b tail stopped closing)))).hli := by
  obtain ⟨u, rq, hli, stats, pushed⟩ := State.closeBillet_pushes tail stopped closing opened
  have queued (rep : BilletReport) : u.queued rep = s.queued rep := by rw [State.queued, State.queued, rq]
  have notices (r : BilletReport) : u.reportNotices r = s.reportNotices r := by
    rw [State.reportNotices, State.reportNotices, rq]
  refine ⟨?_, ?_⟩
  · have count := State.closeBillet_count s n tail stopped closing opened
    have graded := State.reportOf_gradedInOrder (s := s) (n := n) (b := b) tail stopped closing
    rw [BilletReport.queued_eq _ rfl] at graded ⊢
    refine ⟨?_, ?_, rfl, rfl, rfl, rfl, rfl, rfl, rfl, billetLimits_strictestOf _, State.summaries_facesOf ..,
      listedOrder_lists _, graded, ?_, fun g => ?_, fun i => ?_⟩
    · rw [pushed, State.pushReport_rq, ← State.queued, queued, BilletReport.queued_eq _ rfl, rq]
    · rw [pushed, State.pushReport_reportLost, rq, State.linkCount, stats]
      rfl
    · rw [count, closeCount_billetsClosed]
    · rw [count, closeCount_grade]
    · rw [count, closeCount_bin]
  · rw [pushed, State.pushReport_hli, queued, notices]
    exact State.offers_hli_congr hli _

end

end Sys2Proof.Machine

/-! Facts about one event carried over: to what a request began from, and past the end of its command. -/

namespace Sys2Proof.Machine

/-! ### A report, by what it is made from and what stands after -/

/-- Two states that give strand n's billet the same report, the same place for it and the same close counters. -/
structure ReportBase (n : StrandId) (s u : State) : Prop where
  rq : u.rq = s.rq
  lost : u.linkCount .reportLost = s.linkCount .reportLost
  cfg : (u.strand n).cfg = (s.strand n).cfg
  history : (u.strand n).history = (s.strand n).history
  channelCfg (m : ChannelId) : (u.channel m).cfg = (s.channel m).cfg
  log (m : ChannelId) : (u.channel m).lp.log = (s.channel m).lp.log
  count (c : StrandCounter) : ofClose c = true → c ≠ .defectDrop → c ≠ .tailDiscarded →
    u.strandCount n c = s.strandCount n c

theorem ReportBase.trans {n : StrandId} {s t u : State} (a : ReportBase n s t) (b : ReportBase n t u) :
    ReportBase n s u where
  rq := b.rq.trans a.rq
  lost := b.lost.trans a.lost
  cfg := b.cfg.trans a.cfg
  history := b.history.trans a.history
  channelCfg m := (b.channelCfg m).trans (a.channelCfg m)
  log m := (b.log m).trans (a.log m)
  count c on drop tail := (b.count c on drop tail).trans (a.count c on drop tail)

theorem ofClose_gradeCounter (g : Grade) :
    ofClose (gradeCounter g) = true ∧ gradeCounter g ≠ .defectDrop ∧ gradeCounter g ≠ .tailDiscarded := by
  cases g <;> decide

theorem ofClose_binCounter (i : Fin 5) :
    ofClose (binCounter i) = true ∧ binCounter i ≠ .defectDrop ∧ binCounter i ≠ .tailDiscarded := by
  fin_cases i <;> decide

section
variable {n : StrandId} {b : OpenBillet} {dropped : Bool} {tail : Nat} {stopped : Bool} {closing : List DefectRecord}
  {s t u : State} {r : BilletReport}

theorem FacesOf.of_base {faces : List FaceSummary} (base : ReportBase n s u) (h : FacesOf n b tail closing u faces) :
    FacesOf n b tail closing s faces := by
  unfold FacesOf at h ⊢
  unfold FaceSummary.Sums at h ⊢
  simp only [base.cfg, base.channelCfg, base.log] at h
  exact h

theorem ReportOf.of_base (base : ReportBase n s u) (h : ReportOf n b dropped tail stopped closing u t r) :
    ReportOf n b dropped tail stopped closing s t r := by
  obtain ⟨rq, lost, strand, number, head, tail', length, flags, entries, limits, faces, lists, graded, closed, grades,
    bins⟩ := h
  rw [base.rq] at rq lost flags
  rw [base.lost] at lost
  rw [base.cfg] at length
  rw [base.history] at flags entries limits
  rw [base.count _ rfl (by decide) (by decide)] at closed
  refine ⟨rq, lost, strand, number, head, tail', length, flags, entries, limits, faces.of_base base, lists, graded,
    closed, fun g => ?_, fun i => ?_⟩
  · obtain ⟨on, drop, tail⟩ := ofClose_gradeCounter g
    rw [← base.count _ on drop tail]
    exact grades g
  · obtain ⟨on, drop, tail⟩ := ofClose_binCounter i
    rw [← base.count _ on drop tail]
    exact bins i

theorem ReportOf.of_after {t' : State} (rq : t'.rq = t.rq) (lost : t'.linkCount .reportLost = t.linkCount .reportLost)
    (count : ∀ c, ofClose c = true → c ≠ .defectDrop → c ≠ .tailDiscarded → t'.strandCount n c = t.strandCount n c)
    (h : ReportOf n b dropped tail stopped closing s t r) : ReportOf n b dropped tail stopped closing s t' r := by
  obtain ⟨rq', lost', strand, number, head, tail', length, flags, entries, limits, faces, lists, graded, closed, grades,
    bins⟩ := h
  refine ⟨rq.trans rq', lost.trans lost', strand, number, head, tail', length, flags, entries, limits, faces, lists,
    graded, (count _ rfl (by decide) (by decide)).trans closed, fun g => ?_, fun i => ?_⟩
  · obtain ⟨on, drop, tail⟩ := ofClose_gradeCounter g
    exact (count _ on drop tail).trans (grades g)
  · obtain ⟨on, drop, tail⟩ := ofClose_binCounter i
    exact (count _ on drop tail).trans (bins i)

theorem State.reportNotices_congr (rq : u.rq = s.rq) (r : BilletReport) : u.reportNotices r = s.reportNotices r := by
  rw [State.reportNotices, State.reportNotices, rq]

end

/-! ### What the link takes, from another state with the same link, and past the end of a request -/

section
variable {s t u v : State}

/-- A link that grew from `s` with the queue of `u` has grown from `u`. -/
theorem LinkGrows.of_hli (hli : u.hli = v.hli) (from_v : LinkGrows s v) (from_u : LinkGrows s u) (h : LinkGrows u t) :
    LinkGrows v t := by
  obtain ⟨⟨more, out, room, kinds⟩, stats⟩ := h
  obtain ⟨-, atV⟩ := from_v
  obtain ⟨-, atU⟩ := from_u
  rw [hli] at out room kinds
  exact ⟨⟨more, out, room, kinds⟩, fun i h3 h4 => (stats i h3 h4).trans ((atU i h3 h4).trans (atV i h3 h4).symm)⟩

theorem LinkGrows.release (h : LinkGrows s t) : LinkGrows s.release t.release := by
  obtain ⟨⟨more, out, room, kinds⟩, stats⟩ := h
  refine ⟨⟨more, ?_, room, kinds⟩, stats⟩
  rw [State.release_hli, out]
  rfl

theorem OfferedAmong.release {k : NoticeKind} {body : List Byte} (h : OfferedAmong k body s t) :
    OfferedAmong k body s.release t.release := by
  obtain ⟨u, before, after⟩ := h
  exact ⟨u.release, before.release, by rw [← State.release_offer]; exact after.release⟩

theorem OfferedLast.release {k : NoticeKind} {body : List Byte} (h : OfferedLast k body s t) :
    OfferedLast k body s.release t.release := by
  obtain ⟨u, before, rfl⟩ := h
  exact ⟨u.release, before.release, State.release_offer ..⟩

theorem State.release_offers (s : State) (notices : List (NoticeKind × List Byte)) :
    (s.offers notices).release = s.release.offers notices := by
  induction notices generalizing s with
  | nil => rfl
  | cons x rest ih => rw [State.offers_cons, ih, State.release_offer, State.offers_cons]

theorem OthersKept.release {n : StrandId} (h : OthersKept n s t) : OthersKept n s.release t.release := by
  obtain ⟨strands, channels, store, sup, pending, grows⟩ := h
  exact ⟨strands, channels, store, sup, pending, grows.release⟩

theorem LocksLeft.release {n : StrandId} (h : LocksLeft n s t) : LocksLeft n s.release t.release := by
  intro m enabled on
  obtain ⟨soft, hard⟩ := h m enabled on
  exact ⟨fun locked => (soft locked).release, fun locked => (hard locked).release⟩

theorem OfferedAmong.before {k : NoticeKind} {body : List Byte} (grows : LinkGrows s u) (h : OfferedAmong k body u t) :
    OfferedAmong k body s t := by
  obtain ⟨v, before, after⟩ := h
  exact ⟨v, grows.trans before, after⟩

/-- Locks left behind an event that changed no channel's configuration or state. -/
theorem LocksLeft.before {n : StrandId} (grows : LinkGrows s u)
    (alike : ∀ m, (s.channel m).cfg.enabled = true → (s.channel m).cfg.strand = n →
      (u.channel m).cfg = (s.channel m).cfg ∧ (u.channel m).lp.state = (s.channel m).lp.state)
    (coord : (u.strand n).lastTrigger = (s.strand n).lastTrigger) (h : LocksLeft n u t) : LocksLeft n s t := by
  intro m enabled on
  obtain ⟨cfg, state⟩ := alike m enabled on
  obtain ⟨soft, hard⟩ := h m (by rw [cfg]; exact enabled) (by rw [cfg]; exact on)
  rw [state, coord] at soft hard
  exact ⟨fun locked => (soft locked).before grows, fun locked => (hard locked).before grows⟩

end

end Sys2Proof.Machine

/-! An accepted cut (01, 06, 07): the billet it closes, and the next that it opens (R17 to R19, R113 to R117, R124,
R127 to R130). -/

namespace Sys2Proof.Machine

/-! ### The end of a command -/

/-- An event takes `v` to `w`; the command that holds it goes from `s` to `t`: the event itself, or a request with the
event behind its reply, which is then no longer in hand. -/
inductive Ends (v w : State) : State → State → Prop where
  | now : Ends v w v w
  | behind : Ends v w v.release w.release

section
variable {v w s t : State} (ends : Ends v w s t)
include ends

theorem Ends.strand (n : StrandId) : t.strand n = w.strand n := by cases ends <;> rfl

theorem Ends.channel (m : ChannelId) : t.channel m = w.channel m := by cases ends <;> rfl

theorem Ends.strandCount (n : StrandId) (c : StrandCounter) : t.strandCount n c = w.strandCount n c := by
  cases ends <;> rfl

theorem Ends.rq : t.rq = w.rq := by cases ends <;> rfl

theorem Ends.linkCount (c : LinkCounter) : t.linkCount c = w.linkCount c := by cases ends <;> rfl

theorem Ends.othersKept {n : StrandId} (kept : OthersKept n v w) : OthersKept n s t := by
  cases ends with
  | now => exact kept
  | behind => exact kept.release

theorem Ends.locksLeft {n : StrandId} (left : LocksLeft n v w) : LocksLeft n s t := by
  cases ends with
  | now => exact left
  | behind => exact left.release

theorem Ends.offeredLast {k : NoticeKind} {body : List Byte} (last : OfferedLast k body v w) : OfferedLast k body s t := by
  cases ends with
  | now => exact last
  | behind => exact last.release

theorem Ends.offers_grow {notices : List (NoticeKind × List Byte)} (grows : LinkGrows (v.offers notices) w) :
    LinkGrows (s.offers notices) t := by
  cases ends with
  | now => exact grows
  | behind =>
    rw [← State.release_offers]
    exact grows.release

theorem Ends.offers_hli {notices : List (NoticeKind × List Byte)} (hli : w.hli = (v.offers notices).hli) :
    t.hli = (s.offers notices).hli := by
  cases ends with
  | now => exact hli
  | behind => rw [← State.release_offers, State.release_hli, State.release_hli, hli]

theorem Ends.reportOf {n : StrandId} {b : OpenBillet} {dropped : Bool} {tail : Nat} {stopped : Bool}
    {closing : List DefectRecord} {u : State} {r : BilletReport}
    (report : ReportOf n b dropped tail stopped closing u w r) :
    ReportOf n b dropped tail stopped closing u t r :=
  report.of_after ends.rq (ends.linkCount _) fun c _ _ _ => ends.strandCount n c

end

/-! ### The state on which a cut is taken -/

/-- `v` is the state on which a cut of strand n is taken, the statement's being `s`: of the plant and the report queue
only the reference level of the cut input may differ. -/
structure CutFrom (n : StrandId) (s v : State) : Prop where
  strand : v.strand n = { s.strand n with cutLevel := (v.strand n).cutLevel }
  channels : v.channels = s.channels
  rq : v.rq = s.rq
  linkStats : v.linkStats = s.linkStats

section
variable {n : StrandId} {s v : State} (cut : CutFrom n s v)
include cut

theorem CutFrom.channel (m : ChannelId) : v.channel m = s.channel m := channel_eq_of_channels cut.channels m

theorem CutFrom.channelsOf : v.channelsOf n = s.channelsOf n := by
  unfold State.channelsOf
  simp only [cut.channel]

theorem CutFrom.count (c : StrandCounter) : v.strandCount n c = s.strandCount n c := by
  rw [State.strandCount, cut.strand, State.strandCount]

theorem CutFrom.cutAt : v.cutAt n = s.cutAt n := by rw [State.cutAt, cut.strand, State.cutAt]

theorem CutFrom.accepts (accepts : s.AcceptsCut n) : v.AcceptsCut n := by
  rw [State.AcceptsCut, cut.strand]
  exact accepts

theorem CutFrom.closingAt (k : Nat) : v.closingAt n k = s.closingAt n k := by
  unfold State.closingAt
  rw [cut.channelsOf, cut.strand]
  simp only [cut.channel]

theorem CutFrom.base : ReportBase n s v where
  rq := cut.rq
  lost := by rw [State.linkCount, cut.linkStats, State.linkCount]
  cfg := by rw [cut.strand]
  history := by rw [cut.strand]
  channelCfg m := by rw [cut.channel]
  log m := by rw [cut.channel]
  count c _ _ _ := cut.count c

end

theorem CutFrom.of_edge (s : State) (n : StrandId) :
    CutFrom n s (s.putStrand n { s.strand n with cutLevel := true }) where
  strand := by rw [State.strand_putStrand_self]
  channels := rfl
  rq := rfl
  linkStats := rfl

theorem CutFrom.of_reply (s : State) (n : StrandId) (f : HostFrame) (body : List Byte) :
    CutFrom n s ((s.take f).reply f body) := ⟨rfl, rfl, rfl, rfl⟩

theorem cutOutcome_accepted {s : State} {n : StrandId} (accepts : s.AcceptsCut n) :
    cutOutcome (s.strand n) = .accepted := by
  obtain ⟨casting, reached, far⟩ := accepts
  have near : ¬cutCoord (s.strand n) ≤ (s.strand n).lastCut + (s.strand n).cfg.countsPerLine := Nat.not_le.2 far
  rw [cutOutcome, if_neg casting, if_neg (Nat.not_lt.2 reached), if_neg near]

theorem State.cut_accepted {s : State} {n : StrandId} (accepts : s.AcceptsCut n) :
    s.cut n = s.acceptCut n (s.cutAt n) := by
  have outcome := cutOutcome_accepted accepts
  simp only [State.cut, outcome]
  rfl

theorem cutReply_accepted {s : State} {n : StrandId} (accepts : s.AcceptsCut n) :
    cutReply (s.strand n) = byte 0 ++ le 4 (s.cutAt n) := by
  have outcome := cutOutcome_accepted accepts
  rw [cutReply, outcome]
  rfl

/-- What an accepted cut does is what it does to the state on which it is taken, and the end of the request behind it.
-/
theorem exec_cut_accepted {c : Instr} {s s' : State} {n : StrandId} (accepts : s.AcceptsCut n)
    (cut : CutOn c n 0 (s.cutAt n) s s') :
    ∃ v t, CutFrom n s v ∧ Ends v (v.acceptCut n (s.cutAt n)) s' t ∧ exec c s = .next t := by
  obtain ⟨runs, ⟨rfl, rfl⟩ | ⟨rfl, tag, takes, rfl⟩⟩ := cut
  · have from' := CutFrom.of_edge s n
    refine ⟨_, _, from', .now, ?_⟩
    rw [exec_cutEdge runs n, State.cut_accepted (from'.accepts accepts), from'.cutAt]
  · have from' := CutFrom.of_reply s n ⟨0x08#8, tag, byte n.val⟩ ([0x00#8] ++ byte 0 ++ le 4 (s.cutAt n))
    refine ⟨_, _, from', .behind, ?_⟩
    have effect := State.cut_accepted (from'.accepts accepts)
    rw [from'.cutAt] at effect
    rw [exec_cutStrand_of_takes takes, cutReply_accepted accepts]
    exact congrArg (fun u : State => Host.Outcome.next u.release) effect

/-! ### The closing set (R128, R129) -/

section
variable (s : State) (n : StrandId) (k : Nat)

theorem filterMap_movedPart (g : StrandConfig) (k : Nat) (rs : List DefectRecord) :
    rs.filterMap (movedPart g.umPerCount k) =
      rs.flatMap fun d =>
        if d.stop ≤ k then [d]
        else if k ≤ d.start then []
        else [{ d with stop := k, lengthMm := g.lengthMm (k - d.start), continues := true }] := by
  induction rs with
  | nil => rfl
  | cons d rs ih =>
    rw [List.filterMap_cons, List.flatMap_cons, ← ih]
    unfold movedPart
    by_cases below : d.stop ≤ k
    · simp only [if_pos below, List.cons_append, List.nil_append]
    · by_cases above : k ≤ d.start
      · simp only [if_neg below, if_pos above, List.nil_append]
      · simp only [if_neg below, if_neg above, List.cons_append, List.nil_append]
        rfl

theorem filterMap_keptPart (um k : Nat) (rs : List DefectRecord) :
    rs.filterMap (keptPart um k) =
      rs.flatMap fun d =>
        if d.stop ≤ k then []
        else if k ≤ d.start then [d]
        else [{ d with start := k, lengthMm := min 65535 (((d.stop - k) * um + 500) / 1000), continued := true }] := by
  induction rs with
  | nil => rfl
  | cons d rs ih =>
    rw [List.filterMap_cons, List.flatMap_cons, ← ih]
    unfold keptPart
    by_cases below : d.stop ≤ k
    · simp only [if_pos below, List.nil_append]
    · by_cases above : k ≤ d.start
      · simp only [if_neg below, if_pos above, List.cons_append, List.nil_append]
      · simp only [if_neg below, if_neg above, List.cons_append, List.nil_append]
        rfl

theorem State.closingSet_takeCut : (s.takeCut n k).closingSet n k = s.closingAt n k := by
  unfold State.closingSet State.closingAt
  have same : (s.takeCut n k).channelsOf n = s.channelsOf n := rfl
  have cfg : ((s.takeCut n k).strand n).cfg = (s.strand n).cfg := by rw [State.takeCut_strand]
  have defects : ((s.takeCut n k).strand n).defects = (s.strand n).defects := by rw [State.takeCut_strand]
  rw [same, cfg, defects, filterMap_movedPart]
  refine congrArg (· ++ _) (List.flatMap_congr fun m mem => ?_)
  obtain ⟨-, on⟩ := (s.mem_channelsOf n m).1 mem
  have own : (s.takeCut n k).channel m = s.channel m := rfl
  rw [State.splitRecords_eq, State.strandOf, own, on, cfg]

/-! ### The state in which the billet is closed -/

theorem State.parted_count (c : StrandCounter) :
    (s.parted n k).strandCount n c = s.strandCount n c + if c = .cutsAccepted then 1 else 0 := by
  unfold State.strandCount
  rw [State.parted_strand]
  exact State.strandCount_raiseStrand ..

theorem LineKept.linkCount {m : ChannelId} {s t : State} (kept : LineKept m s t) :
    t.linkCount .reportLost = s.linkCount .reportLost := by
  obtain ⟨-, -, -, -, -, -, -, -, -, lost⟩ := kept
  exact lost

theorem foldl_linkCount {f : State → ChannelId → State} (s : State) (ms : List ChannelId)
    (kept : ∀ u m, LineKept m u (f u m)) : (ms.foldl f s).linkCount .reportLost = s.linkCount .reportLost :=
  foldl_keeps (P := fun u : State => u.linkCount .reportLost = s.linkCount .reportLost) ms s rfl fun u m _ hu =>
    (kept u m).linkCount.trans hu

theorem StrandKept.channel_of_not_mem {n : StrandId} {s t : State} (kept : StrandKept n s t) {m : ChannelId}
    (off : m ∉ s.channelsOf n) : t.channel m = s.channel m := by
  obtain ⟨⟨-, others, -⟩, -⟩ := kept
  exact others m (mt (s.mem_channelsOf n m).2 off)

theorem State.parted_base : ReportBase n s (s.parted n k) where
  rq := foldl_rq (s.takeCut n k) _ fun u m => LineKept.splitTracks m u k
  lost := foldl_linkCount (s.takeCut n k) _ fun u m => LineKept.splitTracks m u k
  cfg := by rw [State.parted_strand]
  history := by rw [State.parted_strand]
  channelCfg m := (s.parted_kept n k).cfg_eq m
  log m := by
    by_cases mem : m ∈ s.channelsOf n
    · rw [(s.parted_channel n k mem).1]
    · rw [(s.parted_kept n k).channel_of_not_mem mem]
  count c on _ _ := by
    rw [State.parted_count, if_neg, add_zero]
    rintro rfl
    cases on

theorem State.parted_hli : (s.parted n k).hli = s.hli :=
  foldl_keeps (P := fun u : State => u.hli = s.hli) (f := fun t m => t.splitTracks m k) _ (s.takeCut n k) rfl
    fun _ _ _ hu => hu

/-- The report of the billet that a cut at K closes. -/
def State.cutReport (b : OpenBillet) : BilletReport :=
  (s.parted n k).queued ((s.parted n k).reportOf n b k false (s.closingAt n k))

theorem State.cutClosed_report {b : OpenBillet} (opened : (s.strand n).billet = some b) :
    ReportOf n b b.defectsDropped k false (s.closingAt n k) s (s.cutClosed n k) (s.cutReport n k b) ∧
      (s.cutClosed n k).hli = (s.offers (s.reportNotices (s.cutReport n k b))).hli := by
  have opened' : ((s.parted n k).strand n).billet = some b := by rw [State.parted_strand, opened]
  obtain ⟨report, hli⟩ := State.closeBillet_report k false (s.closingAt n k) opened'
  unfold State.cutClosed
  rw [State.closingSet_takeCut]
  refine ⟨report.of_base (s.parted_base n k), hli.trans ?_⟩
  rw [State.reportNotices_congr (s.parted_base n k).rq]
  exact State.offers_hli_congr (s.parted_hli n k) _

/-- A counter after the close at a cut, but for the close's own. -/
theorem State.cutClosed_count {b : OpenBillet} (opened : (s.strand n).billet = some b) {c : StrandCounter}
    (other : ofClose c = false ∨ c = .defectDrop ∨ c = .tailDiscarded) :
    (s.cutClosed n k).strandCount n c = s.strandCount n c + if c = .cutsAccepted then 1 else 0 := by
  have opened' : ((s.parted n k).strand n).billet = some b := by rw [State.parted_strand, opened]
  have none (g : Grade) (closing : List DefectRecord) : closeCount g closing c = 0 := by
    obtain other | rfl | rfl := other
    · exact closeCount_of_other other g closing
    · exact closeCount_defectDrop g closing
    · exact closeCount_tailDiscarded g closing
  unfold State.cutClosed
  rw [State.closeBillet_count _ n k false _ opened', none, add_zero, State.parted_count]

end

/-! ### The history at a cut (R155) -/

theorem dropEntriesBelow_second (k : Nat) : ∀ (h : List HistoryEntry) (a b : HistoryEntry) (rest : List HistoryEntry),
    dropEntriesBelow k h = a :: b :: rest → k < b.coord
  | [], _, _, _, same => by cases same
  | [_], _, _, _, same => by cases same
  | a :: b :: rest, a', b', rest', same => by
    rw [dropEntriesBelow] at same
    split at same
    · exact dropEntriesBelow_second k (b :: rest) a' b' rest' same
    · next above =>
      cases same
      exact Nat.not_le.1 above

theorem dropEntriesBelow_first (k : Nat) : ∀ h : List HistoryEntry, dropEntriesBelow k h ≠ h →
    ∃ e rest, dropEntriesBelow k h = e :: rest ∧ e.coord ≤ k
  | [], other => absurd rfl other
  | [_], other => absurd rfl other
  | a :: b :: rest, other => by
    rw [dropEntriesBelow] at other ⊢
    split
    · next below =>
      by_cases same : dropEntriesBelow k (b :: rest) = b :: rest
      · exact ⟨b, rest, same, below⟩
      · exact dropEntriesBelow_first k (b :: rest) same
    · next above => exact absurd (if_neg above) other

/-! ### The tracks at a cut (R113 to R116) -/

theorem splitTable_lastLine (pitch k : Nat) (tt : TrackTable) : (splitTable pitch k tt).lastLine = tt.lastLine :=
  expireForCut_lastLine pitch tt

theorem splitTable_slot (pitch k : Nat) (tt : TrackTable) (i : SlotId) :
    (splitTable pitch k tt).slots[i] = ((expireForCut pitch tt).slots[i]).bind (cutRemainder pitch k) :=
  slotsOf_get _ i

theorem expireTrack_bind (pitch line : Nat) (tt : TrackTable) (i : SlotId) :
    (tt.slots[i]).bind (expireTrack pitch line) = tt.unexpired pitch line i := by
  unfold TrackTable.unexpired
  cases tt.slots[i] with
  | none => rfl
  | some t =>
    rw [Option.bind_some, expireTrack, Option.filter_some]
    by_cases old : t.state = .tentative ∧ t.start + 96 * pitch ≤ line
    · simp [old]
    · rw [if_neg old, if_pos]
      simpa [imp_iff_not_or] using old

theorem cutRemainder_of_above {pitch k : Nat} {t : Track} (above : t.state = .tentative ∨ k ≤ t.start) :
    cutRemainder pitch k t = some t := by
  have piece : cutPiece pitch k t = .none := if_neg fun h => above.elim h.1 (Nat.not_le.2 h.2)
  rw [cutRemainder, piece]

theorem cutRemainder_of_split {pitch k : Nat} {t : Track} (followed : t.state ≠ .tentative) (below : t.start < k)
    (beyond : k < t.last + pitch) : cutRemainder pitch k t = some { t with start := k, continued := true } := by
  have piece : cutPiece pitch k t = .split t := by rw [cutPiece, if_pos ⟨followed, below⟩, if_pos beyond]
  rw [cutRemainder, piece]

theorem cutRemainder_of_closed {pitch k : Nat} {t : Track} (followed : t.state ≠ .tentative) (below : t.start < k)
    (within : t.last + pitch ≤ k) : cutRemainder pitch k t = none := by
  have piece : cutPiece pitch k t = .closed t := by
    rw [cutPiece, if_pos ⟨followed, below⟩, if_neg (Nat.not_lt.2 within)]
  rw [cutRemainder, piece]

theorem expireTrack_some {pitch line : Nat} {t u : Track} (kept : expireTrack pitch line t = some u) : t = u := by
  unfold expireTrack at kept
  split at kept
  · cases kept
  · exact Option.some.inj kept

theorem unfollowed_expireForCut {pitch : Nat} {tt : TrackTable} {i : SlotId} {t : Track}
    (unfollowed : tt.slots[i] = none ∨ ∃ t, tt.slots[i] = some t ∧ t.state = .tentative)
    (left : (expireForCut pitch tt).slots[i] = some t) : t.state = .tentative := by
  have held : tt.slots[i] = some t := by
    rw [expireForCut_slot] at left
    cases last : tt.lastLine with
    | none => simpa only [last] using left
    | some l =>
      simp only [last] at left
      obtain ⟨u, held, kept⟩ := Option.bind_eq_some_iff.1 left
      rw [held, expireTrack_some kept]
  obtain none | ⟨u, some, young⟩ := unfollowed
  · exact absurd (none.symm.trans held) nofun
  · exact Option.some.inj (some.symm.trans held) ▸ young

/-- A slot that is FREE or holds a TENTATIVE track changes at a cut by tentative expiry alone. -/
theorem splitTable_of_unfollowed (pitch k : Nat) (tt : TrackTable) (i : SlotId)
    (unfollowed : tt.slots[i] = none ∨ ∃ t, tt.slots[i] = some t ∧ t.state = .tentative) :
    (splitTable pitch k tt).slots[i] =
      match tt.lastLine with
      | none => tt.slots[i]
      | some l => tt.unexpired pitch l.coord i := by
  have slot : (splitTable pitch k tt).slots[i] = (expireForCut pitch tt).slots[i] := by
    rw [splitTable_slot]
    cases left : (expireForCut pitch tt).slots[i] with
    | none => rfl
    | some t =>
      have young : t.state = .tentative := unfollowed_expireForCut unfollowed left
      exact cutRemainder_of_above (.inl young)
  rw [slot, expireForCut_slot]
  cases tt.lastLine with
  | none => rfl
  | some l => exact expireTrack_bind ..

/-- A CONFIRMED or COASTING track does not expire. -/
theorem splitTable_of_followed (pitch k : Nat) (tt : TrackTable) (i : SlotId) {t : Track} (held : tt.slots[i] = some t)
    (followed : t.state ≠ .tentative) : (splitTable pitch k tt).slots[i] = cutRemainder pitch k t := by
  have slot : (expireForCut pitch tt).slots[i] = some t := by
    rw [expireForCut_slot, held]
    cases tt.lastLine with
    | none => rfl
    | some l => exact if_neg fun old => followed old.1
  rw [splitTable_slot, slot, Option.bind_some]

end Sys2Proof.Machine

/-! Cuts (01, 06, 07): the billet closed and the next opened, the partition, the split of the tracks, and the cut that
ends FINISHING (R19, R113 to R118, R127 to R133). -/

namespace Sys2Proof.Machine

/-! ### The strand after a cut in CASTING -/

section
variable (s : State) (n : StrandId) (k : Nat)

/-- The state that an accepted cut at K leaves while the strand casts. -/
theorem State.acceptCut_of_casting (casting : (s.strand n).state = .casting) :
    s.acceptCut n k = (s.closeAtCut n k).openBillet n k false := by
  have state : ((s.closeAtCut n k).strand n).state = .casting := by rw [State.closeAtCut_strand, casting]
  simp only [State.acceptCut, state]

theorem State.acceptCut_of_finishing (finishing : (s.strand n).state = .finishing) :
    s.acceptCut n k = (s.closeAtCut n k).endFinishing n := by
  have state : ((s.closeAtCut n k).strand n).state = .finishing := by rw [State.closeAtCut_strand, finishing]
  simp only [State.acceptCut, state]

theorem State.openBillet_strand (head : Nat) (first : Bool) :
    (s.openBillet n head first).strand n =
      { s.strand n with
        billet :=
          some ⟨(s.strand n).billetCounter, head, first, false, false,
            #v[s.openFace n .faceA, s.openFace n .faceB, s.openFace n .faceC, s.openFace n .faceD]⟩
        billetCounter := (s.strand n).billetCounter + 1 } := by
  rw [State.openBillet, State.modStrand_eq, State.strand_putStrand_self]

/-- The state in which a cut in CASTING ends. -/
def State.cutOpened : State := (s.closeAtCut n k).openBillet n k false

theorem State.closeAtCut_channels : (s.closeAtCut n k).channels = (s.cutClosed n k).channels := rfl

theorem State.closeAtCut_rq : (s.closeAtCut n k).rq = (s.cutClosed n k).rq := rfl

theorem State.closeAtCut_linkCount (c : LinkCounter) :
    (s.closeAtCut n k).linkCount c = (s.cutClosed n k).linkCount c := rfl

theorem State.cutOpened_channels : (s.cutOpened n k).channels = (s.cutClosed n k).channels := rfl

theorem State.cutOpened_rq : (s.cutOpened n k).rq = (s.cutClosed n k).rq := rfl

theorem State.closeAtCut_count (c : StrandCounter) : (s.closeAtCut n k).strandCount n c = (s.cutClosed n k).strandCount n c := by
  rw [State.closeAtCut_eq, State.strandCount, State.modStrand_eq, State.strand_putStrand_self, State.strandCount]

theorem State.cutOpened_count (c : StrandCounter) : (s.cutOpened n k).strandCount n c = (s.cutClosed n k).strandCount n c := by
  rw [State.cutOpened, State.strandCount, State.openBillet_strand]
  exact s.closeAtCut_count n k c

theorem State.cutOpened_cutAt (casting : (s.strand n).state = .casting) :
    (s.strand n).CutAt ((s.cutOpened n k).strand n) k := by
  obtain ⟨suffix, remains⟩ := dropEntriesBelow_suffix k (s.strand n).history
  rw [State.cutOpened, State.openBillet_strand, State.closeAtCut_strand]
  exact ⟨casting, rfl, rfl, rfl, rfl, rfl, rfl, rfl, rfl, rfl, rfl, ⟨_, rfl, rfl, rfl, rfl, rfl, rfl⟩, suffix, remains,
    dropEntriesBelow_second k _, dropEntriesBelow_first k _⟩

theorem State.cutOpened_channel_cutAt (pitch : 1 ≤ (s.strand n).cfg.countsPerLine) (opened : (s.strand n).billet.isSome)
    {m : ChannelId} (mem : m ∈ s.channelsOf n) :
    (s.channel m).CutAt ((s.cutOpened n k).channel m) m (s.strand n).cfg k := by
  obtain ⟨log, closed, covered⟩ := s.cutClosed_channel n k mem
  obtain ⟨-, counts⟩ := s.parted_channel n k mem
  rw [channel_eq_of_channels (s.cutOpened_channels n k), closed, covered opened]
  exact ⟨rfl, rfl, rfl, coverageAbove_start pitch k _, logCells_coverageAbove pitch k _, splitTable_lastLine .., fun i =>
    splitTable_of_unfollowed _ k _ i, Channel.emitted_of_counts counts⟩

/-- The billet that opens has an entry for each face that a channel views, by the channel's state before the cut. -/
theorem State.cutOpened_faces {b : OpenBillet} (opened : ((s.cutOpened n k).strand n).billet = some b) :
    FacesOpened n s b.faces := by
  rw [State.cutOpened, State.openBillet_strand] at opened
  obtain rfl := Option.some.inj opened
  have alike {m : ChannelId} (on : (s.channel m).cfg.enabled = true ∧ (s.channel m).cfg.strand = n) :
      ((s.closeAtCut n k).channel m).hardLocked = (s.channel m).hardLocked := by
    obtain ⟨log, closed, -⟩ := s.cutClosed_channel n k ((s.mem_channelsOf n m).2 on)
    rw [channel_eq_of_channels (s.closeAtCut_channels n k), closed]
    rfl
  have face (f : Face) :
      ((s.closeAtCut n k).openFace n f = none ∧
          ∀ m, (s.channel m).cfg.enabled = true ∧ (s.channel m).cfg.strand = n → (s.channel m).cfg.face ≠ f) ∨
        ∃ m locked, ((s.channel m).cfg.enabled = true ∧ (s.channel m).cfg.strand = n) ∧ (s.channel m).cfg.face = f ∧
          (s.closeAtCut n k).openFace n f = some ⟨false, false, locked⟩ ∧
          (locked = true ↔ ∃ cause, (s.channel m).lp.state = .hardLock cause) := by
    have cases' := (s.closeAtCut n k).openFace_cases n f
    simp only [(StrandKept.closeAtCut n s k).cfg_eq] at cases'
    obtain ⟨none, blind⟩ | ⟨m, on, viewed, some⟩ := cases'
    · exact .inl ⟨none, blind⟩
    · rw [alike on] at some
      exact .inr ⟨m, _, on, viewed, some, (s.channel m).hardLocked_iff⟩
  intro f
  cases f
  · exact face .faceA
  · exact face .faceB
  · exact face .faceC
  · exact face .faceD

end

/-! ### The obligations of a cut in CASTING -/

/-- Settles O33: each part from the state in which the cut ends, whether the pin or a request took it. -/
theorem acceptedCutsCloseAndOpenBillets : Obligations.AcceptedCutsCloseAndOpenBillets := by
  intro c s s' n b casting accepts opened pitch cut
  obtain ⟨v, t, from', ends, ran⟩ := exec_cut_accepted accepts cut
  have casting' : (v.strand n).state = .casting := by rw [from'.strand, casting]
  have opened' : (v.strand n).billet = some b := by rw [from'.strand, opened]
  rw [v.acceptCut_of_casting n _ casting'] at ends
  obtain ⟨report, hli⟩ := v.cutClosed_report n (s.cutAt n) opened'
  have counts {k : StrandCounter} (other : ofClose k = false ∨ k = .defectDrop ∨ k = .tailDiscarded) :
      t.strandCount n k = s.strandCount n k + if k = .cutsAccepted then 1 else 0 := by
    rw [ends.strandCount, ← from'.count, ← v.cutClosed_count n (s.cutAt n) opened' other]
    exact v.cutOpened_count n _ k
  refine ⟨t, v.cutReport n (s.cutAt n) b, ran, ?_, ?_, ?_, ?_, fun k other apart => ?_, ?_, fun m enabled on => ?_,
    fun opens open' => ?_, ?_, ?_⟩
  · have cutAt := v.cutOpened_cutAt n (s.cutAt n) casting'
    rw [ends.strand]
    rw [from'.strand] at cutAt
    exact cutAt
  · exact counts (.inl rfl)
  · exact (counts (.inr (.inl rfl))).trans (add_zero _)
  · exact (counts (.inr (.inr rfl))).trans (add_zero _)
  · rw [counts (.inl other), if_neg apart, add_zero]
  · have based := report.of_base from'.base
    rw [from'.closingAt] at based
    exact ends.reportOf (based.of_after (v.cutOpened_rq n _) rfl fun k _ _ _ => v.cutOpened_count n _ k)
  · have cutAt := v.cutOpened_channel_cutAt n (s.cutAt n) (by rw [from'.strand]; exact pitch)
      (Option.isSome_of_eq_some opened') (m := m) (by rw [from'.channelsOf]; exact (s.mem_channelsOf n m).2 ⟨enabled, on⟩)
    rw [ends.channel]
    rw [from'.channel, from'.strand] at cutAt
    exact cutAt
  · rw [ends.strand] at open'
    have faces := v.cutOpened_faces n (s.cutAt n) open'
    unfold FacesOpened at faces ⊢
    simp only [from'.channel] at faces
    exact faces
  · exact ends.othersKept ((StrandKept.closeAtCut n v _).trans (StrandKept.openBillet n _ _ false)).1
  · rw [← State.reportNotices_congr from'.rq]
    exact ends.offers_hli hli

/-! ### The cut that ends FINISHING -/

section
variable (s : State) (n : StrandId)

theorem State.strandToIdle_rq (reason : StrandReason) : (s.strandToIdle n reason).rq = s.rq := by
  rw [State.strandToIdle, State.strandNotice, State.offer_rq]
  rfl

theorem State.strandToIdle_linkCount (reason : StrandReason) :
    (s.strandToIdle n reason).linkCount .reportLost = s.linkCount .reportLost := by
  rw [State.strandToIdle, State.strandNotice, State.offer_linkCount _ _ _ _ (by decide)]
  rfl

theorem State.strandToIdle_offeredLast {s v : State} {n : StrandId} (reason : StrandReason) (grows : LinkGrows v s) :
    OfferedLast .strandState (byte n.val ++ [0x00#8] ++ byte (reasonCode reason) ++ le 4 (s.strand n).high) v
      (s.strandToIdle n reason) := by
  rw [State.strandToIdle, State.strandNotice, State.modStrand_eq, State.strand_putStrand_self]
  refine ⟨_, ?_, rfl⟩
  exact grows.trans (.of_eq rfl rfl)

theorem State.eachChannel_linkCount {f : ChannelId → State → State} (kept : ∀ u m, LineKept m u (f m u)) :
    (s.eachChannel n f).linkCount .reportLost = s.linkCount .reportLost :=
  foldl_linkCount (s.drawn _) _ fun u m => kept u m

theorem State.endFinishing_rq : (s.endFinishing n).rq = s.rq := by
  rw [State.endFinishing_eq, State.strandToIdle_rq, State.eachChannel_rq _ _ fun u m => LineKept.channelToIdle m u]
  exact foldl_rq (s.discardTail n) _ fun u m => (LineKept.abandon m u).trans (.modTt m _ freeTable)

theorem State.endFinishing_linkCount : (s.endFinishing n).linkCount .reportLost = s.linkCount .reportLost := by
  rw [State.endFinishing_eq, State.strandToIdle_linkCount,
    State.eachChannel_linkCount _ _ fun u m => LineKept.channelToIdle m u]
  exact foldl_linkCount (s.discardTail n) _ fun u m => (LineKept.abandon m u).trans (.modTt m _ freeTable)

theorem State.endFinishing_count (c : StrandCounter) :
    (s.endFinishing n).strandCount n c =
      s.strandCount n c + if c = .tailDiscarded then BitVec.ofNat 32 (s.strand n).defects.length else 0 := by
  rw [State.strandCount, State.endFinishing_strand]
  exact State.strandCount_raiseStrand ..

theorem State.endFinishing_offeredLast :
    OfferedLast .strandState (byte n.val ++ [0x00#8, 0x04#8] ++ le 4 (s.strand n).high) s (s.endFinishing n) := by
  have grows : LinkGrows s ((s.tracksDiscarded n).eachChannel n State.channelToIdle) :=
    ((s.tracksDiscarded_kept n).trans (.eachChannel _ _ fun u m => .channelToIdle m u)).grows
  have high : (((s.tracksDiscarded n).eachChannel n State.channelToIdle).strand n).high = (s.strand n).high := by
    rw [strand_eq_of_strands (State.eachChannel_strands _ n fun u m => State.channelToIdle_strands u m),
      State.tracksDiscarded_strand]
  have last := State.strandToIdle_offeredLast (n := n) .finished grows
  rw [high] at last
  rw [State.endFinishing_eq]
  simpa only [reasonCode, byte, List.append_assoc, List.cons_append, List.nil_append] using last

end

/-- A record is left by the partition where it ends beyond K. -/
theorem length_filterMap_keptPart (um k : Nat) (rs : List DefectRecord) :
    (rs.filterMap (keptPart um k)).length = (rs.filter fun r => decide (k < r.stop)).length := by
  induction rs with
  | nil => rfl
  | cons r rs ih =>
    rw [List.filterMap_cons, List.filter_cons, keptPart]
    by_cases below : r.stop ≤ k
    · rw [if_pos below, decide_eq_false (Nat.not_lt.2 below)]
      exact ih
    · rw [if_neg below, decide_eq_true (Nat.not_le.1 below), if_pos rfl]
      by_cases above : k ≤ r.start
      · rw [if_pos above]
        exact congrArg (· + 1) ih
      · rw [if_neg above]
        exact congrArg (· + 1) ih

/-- Settles O34: the close as at any accepted cut, and the end of the cast behind it. -/
theorem finishingCutsEndTheCast : Obligations.FinishingCutsEndTheCast := by
  intro c s s' n b finishing accepts opened cut
  obtain ⟨v, t, from', ends, ran⟩ := exec_cut_accepted accepts cut
  have finishing' : (v.strand n).state = .finishing := by rw [from'.strand, finishing]
  have opened' : (v.strand n).billet = some b := by rw [from'.strand, opened]
  rw [v.acceptCut_of_finishing n _ finishing'] at ends
  obtain ⟨report, hli⟩ := v.cutClosed_report n (s.cutAt n) opened'
  have closedKept := StrandKept.closeAtCut n v (s.cutAt n)
  have endKept := StrandKept.endFinishing n (v.closeAtCut n (s.cutAt n))
  have counts {k : StrandCounter} (other : ofClose k = false ∨ k = .defectDrop ∨ k = .tailDiscarded) :
      t.strandCount n k =
        s.strandCount n k + (if k = .cutsAccepted then 1 else 0) +
          if k = .tailDiscarded then
            BitVec.ofNat 32 ((s.strand n).defects.filter fun r => decide (s.cutAt n < r.stop)).length
          else 0 := by
    rw [ends.strandCount, ← from'.count, ← v.cutClosed_count n (s.cutAt n) opened' other, State.endFinishing_count,
      State.closeAtCut_count, State.closeAtCut_strand, length_filterMap_keptPart, from'.strand]
  refine ⟨t, v.cutReport n (s.cutAt n) b, ran, ?_, ?_, ?_, ?_, fun k other apart => ?_, ?_, fun m enabled on => ?_, ?_,
    ?_, ?_, ?_⟩
  · rw [ends.strand, State.endFinishing_strand, State.closeAtCut_strand, from'.strand]
    exact ⟨rfl, rfl, rfl, rfl, rfl, rfl, rfl, rfl, rfl, rfl, rfl, rfl, rfl, rfl⟩
  · exact (counts (.inl rfl)).trans (add_zero _)
  · exact (counts (.inr (.inl rfl))).trans (by rw [if_neg (by decide), if_neg (by decide), add_zero, add_zero])
  · exact (counts (.inr (.inr rfl))).trans (by rw [if_neg (by decide), if_pos rfl, add_zero])
  · rw [counts (.inl other), if_neg apart, if_neg (by rintro rfl; cases other), add_zero, add_zero]
  · have based := report.of_base from'.base
    rw [from'.closingAt] at based
    have closed := based.of_after (v.closeAtCut_rq n _) (v.closeAtCut_linkCount n _ _) fun k _ _ _ =>
      v.closeAtCut_count n _ k
    refine ends.reportOf (closed.of_after (State.endFinishing_rq _ n) (State.endFinishing_linkCount _ n) ?_)
    intro k _ _ tail
    rw [State.endFinishing_count, if_neg tail, add_zero]
  · have mem : m ∈ v.channelsOf n := by
      rw [from'.channelsOf]
      exact (s.mem_channelsOf n m).2 ⟨enabled, on⟩
    obtain ⟨log, closed, -⟩ := v.cutClosed_channel n (s.cutAt n) mem
    obtain ⟨-, emitted⟩ := v.parted_channel n (s.cutAt n) mem
    obtain ⟨quiet, framing, offset, expected⟩ := (s.channel m).rx.abandoned_fields
    have own : (v.closeAtCut n (s.cutAt n)).channel m = _ := closed
    rw [ends.channel, State.endFinishing_channel _ n ((closedKept.mem_channelsOf n m).2 mem), own]
    rw [from'.channel, from'.strand] at emitted
    rw [from'.channel]
    exact ⟨rfl, freeTable_empty _, rfl, framing, offset, quiet, expected, Channel.emitted_of_counts emitted⟩
  · exact ends.othersKept (closedKept.trans endKept).1
  · refine ends.offers_grow ?_
    rw [← State.reportNotices_congr from'.rq]
    exact LinkGrows.of_hli hli (.offers ..) closedKept.grows endKept.grows
  · refine ends.locksLeft ?_
    refine (State.endFinishing_locksLeft _ n).before closedKept.grows (fun m enabled on => ?_) ?_
    · obtain ⟨log, closed, -⟩ := v.cutClosed_channel n (s.cutAt n) ((v.mem_channelsOf n m).2 ⟨enabled, on⟩)
      have own : (v.closeAtCut n (s.cutAt n)).channel m = _ := closed
      rw [own]
      exact ⟨rfl, rfl⟩
    · rw [State.closeAtCut_strand]
  · refine ends.offeredLast ?_
    obtain ⟨u, before, last⟩ := State.endFinishing_offeredLast (v.closeAtCut n (s.cutAt n)) n
    rw [State.closeAtCut_strand, from'.strand] at last
    exact ⟨u, closedKept.grows.trans before, last⟩

end Sys2Proof.Machine

/-! What a cut does to the pending records and to the tracks, one by one (06, R113 to R116; 07, R128, R129, R136). -/

namespace Sys2Proof.Machine

/-! ### The records of the report of a cut (R136) -/

theorem mem_listedOrder (x : DefectRecord) (rs : List DefectRecord) : x ∈ listedOrder rs ↔ x ∈ rs := by
  induction rs with
  | nil => rfl
  | cons r rs ih => rw [listedOrder, mem_insertListed, ih, List.mem_cons]

theorem insertListed_length (r : DefectRecord) (xs : List DefectRecord) : (insertListed r xs).length = xs.length + 1 := by
  induction xs with
  | nil => rfl
  | cons y ys ih =>
    unfold insertListed
    split
    · rw [List.length_cons, ih, List.length_cons]
    · rfl

theorem listedOrder_length (rs : List DefectRecord) : (listedOrder rs).length = rs.length := by
  induction rs with
  | nil => rfl
  | cons r rs ih => rw [listedOrder, insertListed_length, ih, List.length_cons]

section
variable {s : State} {n : StrandId} {k : Nat} {b : OpenBillet}

/-- A report that is not LIST_CAPPED lists the whole closing set. -/
theorem State.mem_cutReport (whole : (s.cutReport n k b).flags.listCapped = false) {d : DefectRecord}
    (mem : d ∈ s.closingAt n k) : d ∈ (s.cutReport n k b).records := by
  unfold State.cutReport at whole ⊢
  rw [BilletReport.queued_eq _ rfl] at whole ⊢
  have short : (s.closingAt n k).length ≤ 32 := Nat.not_lt.1 (of_decide_eq_false whole)
  have listed : d ∈ (listedOrder (s.closingAt n k)).take 32 := by
    rw [List.take_of_length_le (by rwa [listedOrder_length])]
    exact (mem_listedOrder d _).2 mem
  exact listed

theorem State.mem_closingAt_of_pending {d piece : DefectRecord} (mem : d ∈ (s.strand n).defects)
    (moved : movedPart (s.strand n).cfg.umPerCount k d = some piece) : piece ∈ s.closingAt n k := by
  have pieces : piece ∈ (s.strand n).defects.filterMap (movedPart (s.strand n).cfg.umPerCount k) :=
    List.mem_filterMap.2 ⟨d, mem, moved⟩
  rw [filterMap_movedPart] at pieces
  exact List.mem_append_right _ pieces

/-- The piece of a track below a cut at K is in its closing set. -/
theorem State.mem_closingAt_of_track {m : ChannelId} (on : m ∈ s.channelsOf n) {i : SlotId} {tr : Track}
    (held : (s.channel m).tt.slots[i] = some tr) (followed : tr.state ≠ .tentative) (below : tr.start < k)
    (beyond : k < tr.last + (s.strand n).cfg.countsPerLine) :
    { tr.record m (s.channel m).cfg.face (s.strand n).cfg with
        stop := k, lengthMm := (s.strand n).cfg.lengthMm (k - tr.start), continues := true } ∈ s.closingAt n k := by
  refine List.mem_append_left _ (List.mem_flatMap.2 ⟨m, on, List.mem_filter.2 ⟨?_, rfl⟩⟩)
  refine List.mem_map.2 ⟨tr, List.mem_filter.2 ⟨?_, decide_eq_true below⟩, if_neg (Nat.not_le.2 beyond)⟩
  refine List.mem_filter.2 ⟨List.mem_filterMap.2 ⟨some tr, ?_, rfl⟩, bne_iff_ne.2 followed⟩
  rw [← held]
  exact Vector.mem_toList_iff.2 (Vector.getElem_mem i.isLt)

end

/-- Every record that the partition leaves starts at or above K. -/
theorem keptPart_start {um k : Nat} {d left : DefectRecord} (kept : keptPart um k d = some left) : k ≤ left.start := by
  unfold keptPart at kept
  split at kept
  · cases kept
  · split at kept
    · next above =>
      cases kept
      exact above
    · cases kept
      exact le_rfl

/-! ### A CUT_EDGE in CASTING -/

/-- What an accepted CUT_EDGE in CASTING leaves: the report of the cut last in the queue, the pending records that the
partition leaves, and the tables that the split leaves. -/
theorem exec_cutEdge_casting {s : State} {n : StrandId} {b : OpenBillet} (runs : s.Runs)
    (casting : (s.strand n).state = .casting) (accepts : s.AcceptsCut n) (opened : (s.strand n).billet = some b) :
    ∃ v t, CutFrom n s v ∧ exec (.cutEdge n) s = .next t ∧ t.rq.getLast? = some (v.cutReport n (s.cutAt n) b) ∧
      (t.strand n).defects = (s.strand n).defects.filterMap (keptPart (s.strand n).cfg.umPerCount (s.cutAt n)) ∧
      ∀ m ∈ s.channelsOf n,
        (t.channel m).tt = splitTable (s.strand n).cfg.countsPerLine (s.cutAt n) (s.channel m).tt := by
  obtain ⟨v, t, from', ends, ran⟩ := exec_cut_accepted accepts (c := .cutEdge n) ⟨runs, .inl ⟨rfl, rfl⟩⟩
  have casting' : (v.strand n).state = .casting := by rw [from'.strand, casting]
  have opened' : (v.strand n).billet = some b := by rw [from'.strand, opened]
  rw [v.acceptCut_of_casting n _ casting'] at ends
  obtain ⟨⟨queue, -⟩, -⟩ := v.cutClosed_report n (s.cutAt n) opened'
  refine ⟨v, t, from', ran, ?_, ?_, fun m mem => ?_⟩
  · rw [ends.rq]
    exact (congrArg List.getLast? queue).trans List.getLast?_concat
  · rw [ends.strand, State.openBillet_strand, State.closeAtCut_strand, from'.strand]
  · obtain ⟨log, closed, -⟩ := v.cutClosed_channel n (s.cutAt n) (m := m) (by rwa [from'.channelsOf])
    have own : (State.openBillet (v.closeAtCut n (s.cutAt n)) n (s.cutAt n) false).channel m = _ := closed
    rw [ends.channel, own, from'.strand, from'.channel]

/-- Settles O35: the partition is `keptPart` and `movedPart` record by record. -/
theorem cutsPartitionThePendingQueue : Obligations.CutsPartitionThePendingQueue := by
  intro s n b runs casting accepts opened x k mm
  obtain ⟨v, t, from', ran, report, defects, -⟩ := exec_cutEdge_casting runs casting accepts opened
  refine ⟨t, _, ran, report, ?_, fun d mem => ?_, fun whole d mem => ⟨fun below => ?_, fun starts beyond => ?_⟩⟩
  · rw [defects, filterMap_keptPart]
  · rw [defects] at mem
    obtain ⟨d', -, kept⟩ := List.mem_filterMap.1 mem
    exact keptPart_start kept
  · refine State.mem_cutReport whole ?_
    rw [from'.closingAt]
    exact State.mem_closingAt_of_pending mem (if_pos below)
  · refine State.mem_cutReport whole ?_
    rw [from'.closingAt]
    exact State.mem_closingAt_of_pending mem ((if_neg (Nat.not_le.2 beyond)).trans (if_neg (Nat.not_le.2 starts)))

/-- Settles O36: the three cases of a followed track at K. -/
theorem cutsSplitTheTracks : Obligations.CutsSplitTheTracks := by
  intro s n m i tr b runs casting accepts opened enabled on held followed x k
  obtain ⟨v, t, from', ran, report, -, tables⟩ := exec_cutEdge_casting runs casting accepts opened
  have mem := (s.mem_channelsOf n m).2 ⟨enabled, on⟩
  have slot : (t.channel m).tt.slots[i] = cutRemainder x.cfg.countsPerLine k tr := by
    rw [tables m mem]
    exact splitTable_of_followed _ _ _ i held followed
  refine ⟨t, _, ran, report, fun above => ?_, fun below within => ?_, fun below beyond => ⟨?_, fun whole => ?_⟩⟩
  · rw [slot, cutRemainder_of_above (.inr above)]
  · rw [slot, cutRemainder_of_closed followed below within]
  · rw [slot, cutRemainder_of_split followed below beyond]
  · refine State.mem_cutReport whole ?_
    rw [from'.closingAt]
    exact State.mem_closingAt_of_track mem held followed below beyond

end Sys2Proof.Machine

/-! A stop (01, R14, R15; 07, R126, R132): the records that its flush hands over, the billet it closes, and the end of
the cast. -/

namespace Sys2Proof.Machine

/-! ### Records into the pending queue (R126) -/

/-- A record reaches the pending queue of 96, or is dropped, counted and flagged. -/
def Strand.receive (x : Strand) (r : DefectRecord) : Strand :=
  if x.defects.length < 96 then { x with defects := x.defects ++ [r] }
  else
    { x with
      billet := x.billet.map fun b => { b with defectsDropped := true }
      stats := x.stats.set (strandIndex .defectDrop) (x.stats[strandIndex .defectDrop] + 1) }

theorem State.receive_strand (s : State) (n : StrandId) (r : DefectRecord) :
    (s.receive n r).strand n = (s.strand n).receive r := by
  unfold State.receive Strand.receive
  by_cases room : (s.strand n).defects.length < 96
  · rw [if_pos room, if_pos (show _ < defectCapacity from room), State.modStrand_eq, State.strand_putStrand_self]
  · rw [if_neg room, if_neg (show ¬_ < defectCapacity from room), State.modBillet, State.modStrand_eq,
      State.strand_putStrand_self, State.raiseStrand_eq, State.strand_putStrand_self]
    rfl

theorem State.receiveAll_strand (s : State) (n : StrandId) (rs : List DefectRecord) :
    (s.receiveAll n rs).strand n = rs.foldl Strand.receive (s.strand n) := by
  unfold State.receiveAll
  induction rs generalizing s with
  | nil => rfl
  | cons r rs ih => rw [List.foldl_cons, ih, State.receive_strand, List.foldl_cons]

/-- What room the pending queue has of 96. -/
def Strand.room (x : Strand) : Nat := 96 - x.defects.length

theorem Strand.receive_of_room {x : Strand} (room : 0 < x.room) (r : DefectRecord) :
    x.receive r = { x with defects := x.defects ++ [r] } := if_pos (by unfold Strand.room at room; omega)

theorem Strand.receive_of_full {x : Strand} (full : x.room = 0) (r : DefectRecord) :
    x.receive r =
      { x with
        billet := x.billet.map fun b => { b with defectsDropped := true }
        stats := x.stats.set (strandIndex .defectDrop) (x.stats[strandIndex .defectDrop] + 1) } :=
  if_neg (by unfold Strand.room at full; omega)

/-- Records one behind the other: the first of them find room, the rest are dropped. -/
theorem Strand.receiveAll_eq (rs : List DefectRecord) (x : Strand) :
    (rs.foldl Strand.receive x).defects = x.defects ++ rs.take x.room ∧
      (rs.foldl Strand.receive x).billet =
        x.billet.map (fun b => { b with defectsDropped := b.defectsDropped || decide (x.room < rs.length) }) ∧
      ∀ c : StrandCounter, (rs.foldl Strand.receive x).stats[strandIndex c] =
        x.stats[strandIndex c] + if c = .defectDrop then BitVec.ofNat 32 (rs.length - x.room) else 0 := by
  induction rs generalizing x with
  | nil => simp
  | cons r rs ih =>
    obtain ⟨defects, billet, count⟩ := ih (x.receive r)
    rw [List.foldl_cons, defects, billet]
    simp only [count]
    by_cases room : 0 < x.room
    · have left : x.room = (x.receive r).room + 1 := by
        rw [Strand.receive_of_room room]
        unfold Strand.room at room ⊢
        rw [List.length_append, List.length_singleton]
        omega
      rw [left, Strand.receive_of_room room]
      simp
    · have full : x.room = 0 := by omega
      have still : (x.receive r).room = 0 := by
        rw [Strand.receive_of_full full]
        exact full
      rw [still, full, Strand.receive_of_full full]
      refine ⟨rfl, ?_, fun c => ?_⟩
      · simp [Option.map_map, Function.comp_def]
      · by_cases own : c = .defectDrop
        · subst own
          simp only [if_true, Nat.sub_zero, List.length_cons, BitVec.ofNat_add, Fin.getElem_fin, Vector.getElem_set_self]
          ac_rfl
        · have apart : (strandIndex .defectDrop).val ≠ (strandIndex c).val := fun e =>
            own (strandIndex_injective _ _ (Fin.ext e)).symm
          simp [own, apart]

/-! ### The records of a flush (R109, R111) -/

/-- The records of channel m that reach the billet assembler at a flush (R109, R111). -/
def Channel.flushEmits (c : Channel) (m : ChannelId) (g : StrandConfig) : List DefectRecord :=
  longOnes c.tt.minDefectMm (c.flushed m g)

theorem State.flush_strand (s : State) (m : ChannelId) :
    (s.flush m).strand (s.channel m).cfg.strand =
      ((s.channel m).flushEmits m (s.strandOf m).cfg).foldl Strand.receive (s.strand (s.channel m).cfg.strand) := by
  rw [State.flush_eq, State.emit, State.modTt_eq, State.channel_putChannel_self]
  dsimp only
  rw [State.receiveAll_strand, strand_eq_of_strands (State.countEmission_strands ..), lastMinDefect_eq, State.flushRecords_eq]
  rfl

/-- The flushes of channels of strand n, one behind the other, hand their records over in that order. -/
theorem foldl_flush_strand {n : StrandId} (ms : List ChannelId) (s : State) (nodup : ms.Nodup)
    (on : ∀ m ∈ ms, (s.channel m).cfg.strand = n) :
    (ms.foldl (fun t m => t.flush m) s).strand n =
      (ms.flatMap fun m => (s.channel m).flushEmits m (s.strand n).cfg).foldl Strand.receive (s.strand n) := by
  induction ms generalizing s with
  | nil => rfl
  | cons m ms ih =>
    obtain ⟨apart, nodup⟩ := List.nodup_cons.1 nodup
    have kept := LineKept.flush m s
    have own := on m List.mem_cons_self
    have others {j : ChannelId} (mem : j ∈ ms) : (s.flush m).channel j = s.channel j := by
      obtain ⟨others, -⟩ := kept
      exact others j fun e => apart (e ▸ mem)
    have cfg : ((s.flush m).strand n).cfg = (s.strand n).cfg := by rw [kept.strand_eq n]
    have first := s.flush_strand m
    rw [State.strandOf, own] at first
    rw [List.foldl_cons, ih (s.flush m) nodup fun j mem => by rw [others mem]; exact on j (List.mem_cons_of_mem _ mem),
      List.flatMap_cons, List.foldl_append, cfg, first]
    refine congrArg (fun rs => List.foldl Strand.receive _ rs) (List.flatMap_congr fun j mem => ?_)
    rw [others mem]

section
variable (s : State) (n : StrandId)

/-- The order in which a stop flushes the channels (log 8). -/
def State.flushOrder : List ChannelId := ((s.channelsOf n).foldl State.abandon s).openOrder n

/-- The records that a stop's flushes hand over. -/
def State.flushEmitted : List DefectRecord :=
  (s.flushOrder n).flatMap fun m => (s.channel m).flushEmits m (s.strand n).cfg

theorem State.flushOrder_perm : (s.flushOrder n).Perm (s.channelsOf n) := by
  have abandoned : StrandKept n s ((s.channelsOf n).foldl State.abandon s) :=
    StrandKept.channels _ s fun u m => LineKept.abandon m u
  exact (State.openOrder_perm _ n).trans (.of_eq abandoned.channelsOf_eq)

theorem State.flushed_strand : (s.flushed n).strand n = (s.flushEmitted n).foldl Strand.receive (s.strand n) := by
  have abandoned : ((s.channelsOf n).foldl State.abandon s).strand n = s.strand n :=
    strand_eq_of_strands (foldl_strands s _ fun u m => State.abandon_strands u m) n
  have mem {m : ChannelId} (mem : m ∈ s.flushOrder n) : m ∈ s.channelsOf n := (s.flushOrder_perm n).mem_iff.1 mem
  have channel {m : ChannelId} (mem : m ∈ s.channelsOf n) :
      ((s.channelsOf n).foldl State.abandon s).channel m = { s.channel m with rx := (s.channel m).rx.abandoned } := by
    obtain ⟨u, before, after⟩ := foldl_turn (s.channelsOf_nodup n) mem (fun u j => LineKept.abandon j u) s
    rw [after.channel, State.abandon_channel, before.channel]
  have flushes := foldl_flush_strand (n := n) (s.flushOrder n) ((s.channelsOf n).foldl State.abandon s).drawn
    (State.openOrder_nodup _ n) fun m on => by
      have own : ((s.channelsOf n).foldl State.abandon s).drawn.channel m = _ := channel (mem on)
      rw [own]
      exact ((s.mem_channelsOf n m).1 (mem on)).2
  refine flushes.trans ?_
  have strand : ((s.channelsOf n).foldl State.abandon s).drawn.strand n = s.strand n := abandoned
  rw [strand]
  refine congrArg (fun rs => List.foldl Strand.receive _ rs) (List.flatMap_congr fun m on => ?_)
  have own : ((s.channelsOf n).foldl State.abandon s).drawn.channel m = _ := channel (mem on)
  rw [own]
  rfl

end

end Sys2Proof.Machine

/-! The stop of a strand, whole: STOP_STRAND, FINISH_STRAND, and the end of the travel (01, R5, R13 to R15; 07, R132). -/

namespace Sys2Proof.Machine

section
variable (s : State) (n : StrandId)

/-! ### The close of a stop (R126, R132) -/

theorem State.receive_hli (r : DefectRecord) : (s.receive n r).hli = s.hli := by
  unfold State.receive
  split <;> rfl

theorem State.receiveAll_hli (rs : List DefectRecord) : (s.receiveAll n rs).hli = s.hli :=
  foldl_keeps (P := fun u : State => u.hli = s.hli) rs s rfl fun u r _ hu => (u.receive_hli n r).trans hu

theorem State.flush_hli (m : ChannelId) : (s.flush m).hli = s.hli := by
  rw [State.flush_eq, State.emit, State.receiveAll_hli]
  rfl

theorem State.abandon_hli (m : ChannelId) : (s.abandon m).hli = s.hli := by
  unfold State.abandon
  split <;> rfl

theorem State.flushed_hli : (s.flushed n).hli = s.hli := by
  have abandoned : ((s.channelsOf n).foldl State.abandon s).hli = s.hli :=
    foldl_keeps (P := fun u : State => u.hli = s.hli) _ s rfl fun u m _ hu => (u.abandon_hli m).trans hu
  exact foldl_keeps (P := fun u : State => u.hli = s.hli) (f := fun t m => t.flush m) _ (State.drawn _) abandoned
    fun u m _ hu => (u.flush_hli m).trans hu

theorem State.flushed_count (c : StrandCounter) :
    (s.flushed n).strandCount n c =
      s.strandCount n c +
        if c = .defectDrop then BitVec.ofNat 32 ((s.flushEmitted n).length - (s.strand n).room) else 0 := by
  obtain ⟨-, -, count⟩ := Strand.receiveAll_eq (s.flushEmitted n) (s.strand n)
  rw [State.strandCount, State.flushed_strand, count, State.strandCount]

theorem State.flushed_base : ReportBase n s (s.flushed n) where
  rq := (State.eachChannel_rq _ _ fun u m => LineKept.flush m u).trans (foldl_rq s _ fun u m => LineKept.abandon m u)
  lost := (State.eachChannel_linkCount _ n fun u m => LineKept.flush m u).trans
    (foldl_linkCount s _ fun u m => LineKept.abandon m u)
  cfg := by rw [(s.flushed_billetSteps n).frame]
  history := by rw [(s.flushed_billetSteps n).frame]
  channelCfg m := (s.flushed_kept n).cfg_eq m
  log m := by
    by_cases mem : m ∈ s.channelsOf n
    · rw [s.flushed_channel n mem]
    · rw [(s.flushed_kept n).channel_of_not_mem mem]
  count c _ apart _ := by rw [State.flushed_count, if_neg apart, add_zero]

/-- A counter after the close of a stop, but for the close's own. -/
theorem State.stopClosed_count {c : StrandCounter} (other : ofClose c = false ∨ c = .defectDrop ∨ c = .tailDiscarded) :
    (s.stopClosed n).strandCount n c = (s.flushed n).strandCount n c := by
  have none (g : Grade) (closing : List DefectRecord) : closeCount g closing c = 0 := by
    obtain other | rfl | rfl := other
    · exact closeCount_of_other other g closing
    · exact closeCount_defectDrop g closing
    · exact closeCount_tailDiscarded g closing
  unfold State.stopClosed
  cases opened : ((s.flushed n).strand n).billet with
  | none => rw [State.closeBillet_of_none _ n _ _ _ opened]
  | some b => rw [State.closeBillet_count _ n _ _ _ opened, none, add_zero]

theorem State.stopClosed_report_flushed {b : OpenBillet} (opened : ((s.flushed n).strand n).billet = some b) :
    ∃ r, ReportOf n b b.defectsDropped ((s.flushed n).strand n).high true ((s.flushed n).strand n).defects (s.flushed n)
        (s.stopClosed n) r ∧
      (s.stopClosed n).hli = ((s.flushed n).offers ((s.flushed n).reportNotices r)).hli :=
  ⟨_, State.closeBillet_report _ true _ opened⟩

theorem State.stopClosed_report {b : OpenBillet} (opened : (s.strand n).billet = some b) :
    ∃ r, ReportOf n b (b.defectsDropped || decide ((s.strand n).room < (s.flushEmitted n).length)) (s.strand n).high true
        ((s.strand n).defects ++ (s.flushEmitted n).take (s.strand n).room) s (s.stopClosed n) r ∧
      (s.stopClosed n).hli = (s.offers (s.reportNotices r)).hli := by
  obtain ⟨defects, billet, -⟩ := Strand.receiveAll_eq (s.flushEmitted n) (s.strand n)
  rw [← State.flushed_strand] at defects billet
  rw [opened] at billet
  have high : ((s.flushed n).strand n).high = (s.strand n).high := by rw [(s.flushed_billetSteps n).frame]
  obtain ⟨r, report, hli⟩ := s.stopClosed_report_flushed n billet
  rw [State.reportNotices_congr (s.flushed_base n).rq, State.offers_hli_congr (s.flushed_hli n)] at hli
  have based := report.of_base (s.flushed_base n)
  rw [high, defects] at based
  exact ⟨r, based, hli⟩

/-! ### The stop (R14) -/

section
variable (reason : StrandReason)

theorem State.stopStrand_linkCount :
    (s.stopStrand n reason).linkCount .reportLost = (s.stopClosed n).linkCount .reportLost := by
  rw [State.stopStrand_eq, State.strandToIdle_linkCount,
    State.eachChannel_linkCount _ _ fun u m => LineKept.channelToIdle m u]

theorem State.stopStrand_count (c : StrandCounter) :
    (s.stopStrand n reason).strandCount n c = (s.stopClosed n).strandCount n c := by
  rw [State.strandCount, State.stopStrand_strand]
  rfl

/-- A stop, by the reason in its notice (R14). -/
theorem State.stopStrand_stoppedWith : StoppedWith n (reasonCode reason) s (s.stopStrand n reason) := by
  have idleKept : StrandKept n (s.stopClosed n) ((s.stopClosed n).eachChannel n State.channelToIdle) :=
    .eachChannel _ _ fun u m => .channelToIdle m u
  refine ⟨?_, fun m enabled on => ?_, ⟨s.flushOrder n, s.flushOrder_perm n, ?_, ?_, fun b opened => ?_⟩, ?_,
    fun k other => ?_, ?_, ?_⟩
  · rw [State.stopStrand_strand]
    exact ⟨rfl, rfl, rfl, rfl, rfl, rfl, rfl, rfl, rfl, rfl, rfl, rfl, rfl, rfl⟩
  · exact s.stopStrand_ended n reason ((s.mem_channelsOf n m).2 ⟨enabled, on⟩)
  · rw [State.stopStrand_count, State.stopClosed_count _ _ (.inr (.inl rfl)), State.flushed_count, if_pos rfl]
    rfl
  · rw [State.stopStrand_count, State.stopClosed_count _ _ (.inr (.inr rfl)), State.flushed_count,
      if_neg (by decide), add_zero]
  · obtain ⟨r, report, hli⟩ := s.stopClosed_report n opened
    refine ⟨r, report.of_after (s.stopStrand_rq n reason) (s.stopStrand_linkCount n reason) fun c _ _ _ =>
      s.stopStrand_count n reason c, ?_⟩
    exact LinkGrows.of_hli hli (.offers ..) (s.stopClosed_kept n).grows
      (idleKept.trans (.strandToIdle n _ reason)).grows
  · exact s.stopStrand_locksLeft n reason
  · rw [State.stopStrand_count, State.stopClosed_count _ _ (.inl other), State.flushed_count, if_neg, add_zero]
    rintro rfl
    cases other
  · exact (StrandKept.stopStrand n s reason).1
  · have high : (((s.stopClosed n).eachChannel n State.channelToIdle).strand n).high = (s.strand n).high := by
      rw [strand_eq_of_strands (State.eachChannel_strands _ n fun u m => State.channelToIdle_strands u m)]
      unfold State.stopClosed
      rw [State.closeBillet_strand, (State.flushed_billetSteps s n).frame]
    have last := State.strandToIdle_offeredLast (n := n) reason ((s.stopClosed_kept n).trans idleKept).grows
    rwa [high] at last

end

end

theorem StoppedWith.release {n : StrandId} {reason : Nat} {s t : State} (h : StoppedWith n reason s t) :
    StoppedWith n reason s.release t.release := by
  obtain ⟨strand, channels, ⟨order, perm, drops, tails, report⟩, locks, counts, others, last⟩ := h
  refine ⟨strand, channels, ⟨order, perm, drops, tails, fun b opened => ?_⟩, locks.release, counts, others.release,
    last.release⟩
  obtain ⟨r, made, grows⟩ := report b opened
  refine ⟨r, made, ?_⟩
  have grows' := grows.release
  rwa [State.release_offers] at grows'

/-! ### FINISH_STRAND and STOP_STRAND (R13, R14) -/

section
variable {b : List Byte} {s : State}

theorem handleFinishStrand_of_bad (bad : inRange 4 (byteAt b 0) = none) : handleFinishStrand b s = refuse .badArgument := by
  simp only [handleFinishStrand, bad]

theorem handleStopStrand_of_bad (bad : inRange 4 (byteAt b 0) = none) : handleStopStrand b s = refuse .badArgument := by
  simp only [handleStopStrand, bad]

variable {n : StrandId} (named : inRange 4 (byteAt b 0) = some n)
include named

theorem handleFinishStrand_of_idle (idle : (s.strand n).state = .idle) : handleFinishStrand b s = refuse .notCasting := by
  simp only [handleFinishStrand, named, idle]

theorem handleFinishStrand_of_finishing (finishing : (s.strand n).state = .finishing) :
    handleFinishStrand b s = granted [] id := by
  simp only [handleFinishStrand, named, finishing]

theorem handleFinishStrand_of_casting (casting : (s.strand n).state = .casting) :
    handleFinishStrand b s =
      granted [] fun t => (t.modStrand n fun x => { x with state := .finishing }).strandNotice n .finish := by
  simp only [handleFinishStrand, named, casting]

theorem handleStopStrand_of_idle (idle : (s.strand n).state = .idle) : handleStopStrand b s = granted [] id := by
  simp only [handleStopStrand, named, idle]

theorem handleStopStrand_of_casting (casting : (s.strand n).state ≠ .idle) :
    handleStopStrand b s = granted [] fun t => t.stopStrand n .stop := by
  cases state : (s.strand n).state with
  | idle => exact absurd state casting
  | casting | finishing => simp only [handleStopStrand, named, state]

end

theorem State.finish_written (s : State) (n : StrandId) :
    (s.modStrand n fun x => { x with state := .finishing }).strandNotice n .finish =
      (s.putStrand n { s.strand n with state := .finishing }).offer .strandState
        (byte n.val ++ [0x02#8, 0x01#8] ++ le 4 (s.strand n).high) := by
  rw [State.strandNotice, State.modStrand_eq, State.strand_putStrand_self]
  rfl

/-- Settles O41: each request by the strand's state; the stop by `stopStrand_stoppedWith`. -/
theorem finishAndStopEndTheCast : Obligations.FinishAndStopEndTheCast := by
  intro s tag
  refine ⟨fun b bad => ⟨fun takes => ?_, fun takes => ?_⟩, fun n => ?_⟩
  · exact exec_refused rfl takes rfl rfl (handleFinishStrand_of_bad (inRange_of_le bad))
  · exact exec_refused rfl takes rfl rfl (handleStopStrand_of_bad (inRange_of_le bad))
  intro finish stop
  have finishes : inRange 4 (byteAt finish.body 0) = some n := inRange_byte_strand n
  have stops : inRange 4 (byteAt stop.body 0) = some n := inRange_byte_strand n
  refine ⟨fun takes => ⟨fun idle => ?_, fun finishing => ?_, fun casting => ?_⟩, fun takes => ⟨fun idle => ?_,
    fun casting => ?_⟩⟩
  · exact exec_refused (code := .notCasting) rfl takes rfl rfl
      (handleFinishStrand_of_idle finishes (s := s.take finish) idle)
  · exact exec_granted_id (c := .finishStrand) rfl takes rfl rfl
      (handleFinishStrand_of_finishing finishes (s := s.take finish) finishing)
  · rw [exec_granted (c := .finishStrand) rfl takes rfl rfl
      (handleFinishStrand_of_casting finishes (s := s.take finish) casting), State.finish_written, State.release_offer]
    rfl
  · exact exec_granted_id (c := .stopStrand) rfl takes rfl rfl (handleStopStrand_of_idle stops (s := s.take stop) idle)
  · have stopped := (State.stopStrand_stoppedWith ((s.take stop).reply stop ([0x00#8] ++ [])) n .stop).release
    have answered : ((s.take stop).reply stop ([0x00#8] ++ [])).release = s.answered stop [0x00#8] := rfl
    rw [answered] at stopped
    exact ⟨_, exec_granted (c := .stopStrand) rfl takes rfl rfl
      (handleStopStrand_of_casting stops (s := s.take stop) casting), stopped⟩

/-! ### The end of the travel (R5) -/

theorem State.forwardCount_of_end {s : State} {n : StrandId} (atEnd : (s.strand n).travel = maxCoord) :
    s.forwardCount n = s.stopStrand n .travelEnd := by
  rw [State.forwardCount, if_pos (le_of_eq atEnd.symm)]

theorem State.runs_of_sup {s t : State} (same : t.sup = s.sup) (runs : s.Runs) : t.Runs := by
  unfold State.Runs at runs ⊢
  rwa [same]

/-- Settles O30: the stop by `stopStrand_stoppedWith`; the strand is then IDLE, and no count moves T or H. -/
theorem travelEndStopsTheStrand : Obligations.TravelEndStopsTheStrand := by
  intro s n input runs casting p forward travel high
  have atEnd : ((s.putStrand n { s.strand n with phase := p }).strand n).travel = maxCoord := by
    rw [State.strand_putStrand_self, travel]
  have ran := exec_encoderCount_forward runs casting forward
  rw [State.forwardCount_of_end atEnd] at ran
  have strand := State.stopStrand_strand (s.putStrand n { s.strand n with phase := p }) n .travelEnd
  rw [State.strand_putStrand_self] at strand
  have stopped := State.stopStrand_stoppedWith (s.putStrand n { s.strand n with phase := p }) n .travelEnd
  have same : ((s.putStrand n { s.strand n with phase := p }).stopStrand n .travelEnd).sup = s.sup := by
    obtain ⟨⟨-, -, -, sup, -⟩, -⟩ := StrandKept.stopStrand n (s.putStrand n { s.strand n with phase := p }) .travelEnd
    exact sup
  generalize (s.putStrand n { s.strand n with phase := p }).stopStrand n .travelEnd = t at ran strand stopped same
  refine ⟨t, ran, by rw [strand]; exact travel, by rw [strand]; exact high, stopped, fun again => ?_⟩
  have idle : (t.strand n).state = .idle := by rw [strand]; rfl
  refine ⟨_, (exec_encoderCount_of_runs (State.runs_of_sup same runs) n again).trans
    (congrArg _ (State.encoderCount_of_idle idle again)), ?_, ?_⟩
  · rw [State.strand_putStrand_self, strand]
    exact travel
  · rw [State.strand_putStrand_self, strand]
    exact high

end Sys2Proof.Machine

/-! The coverage log (05, R90, R91), and what every settlement of a line keeps and counts (02, 05). -/

namespace Sys2Proof.Machine

/-! ### Entering a line (R90, R91) -/

theorem extendNewest_concat (cls : Coverage) (newest : Segment) : ∀ older : List Segment,
    extendNewest cls (older ++ [newest]) =
      if newest.cls = cls then some (older ++ [{ newest with count := newest.count + 1 }]) else none
  | [] => rfl
  | [a] => by
    rw [List.cons_append, List.nil_append, extendNewest, extendNewest]
    split <;> rfl
  | a :: b :: older => by
    rw [List.cons_append, List.cons_append, extendNewest, ← List.cons_append, extendNewest_concat cls newest (b :: older)]
    split <;> rfl

theorem enterCoverage_of_joins {cls : Coverage} (line : Nat) {newest : Segment} (older : List Segment)
    (joins : newest.cls = cls) :
    enterCoverage line cls (older ++ [newest]) = older ++ [{ newest with count := newest.count + 1 }] := by
  rw [enterCoverage, extendNewest_concat, if_pos joins]

theorem enterCoverage_of_opens {cls : Coverage} (line : Nat) {log : List Segment}
    (opens : ∀ newest, log.getLast? = some newest → newest.cls ≠ cls) :
    enterCoverage line cls log = (if 64 ≤ log.length then mergeOldestSegments log else log) ++ [⟨line, cls, 1⟩] := by
  have none : extendNewest cls log = none := by
    rcases List.eq_nil_or_concat log with rfl | ⟨older, newest, rfl⟩
    · rfl
    · rw [List.concat_eq_append] at opens ⊢
      rw [extendNewest_concat, if_neg (opens newest List.getLast?_concat)]
  rw [enterCoverage, none]
  rfl

theorem worse_eq (a b : Coverage) :
    worse a b =
      if a = .unavailable ∨ b = .unavailable then .unavailable
      else if a = .obscured ∨ b = .obscured then .obscured
      else .inspected := by
  cases a <;> cases b <;> rfl

theorem logLines_append (a b : List Segment) : logLines (a ++ b) = logLines a + logLines b := by
  rw [logLines, List.map_append, List.sum_append, logLines, logLines]

theorem logLines_mergeOldest (log : List Segment) : logLines (mergeOldestSegments log) = logLines log := by
  match log with
  | [] => rfl
  | [_] => rfl
  | a :: b :: rest => simp [mergeOldestSegments, logLines, Nat.add_assoc]

theorem logLines_enterCoverage (line : Nat) (cls : Coverage) (log : List Segment) :
    logLines (enterCoverage line cls log) = logLines log + 1 := by
  by_cases opens : ∀ newest, log.getLast? = some newest → newest.cls ≠ cls
  · rw [enterCoverage_of_opens line opens, logLines_append]
    split
    · rw [logLines_mergeOldest]
      rfl
    · rfl
  · simp only [not_forall, not_not] at opens
    obtain ⟨newest, last, joins⟩ := opens
    obtain ⟨older, rfl⟩ := List.getLast?_eq_some_iff.1 last
    rw [enterCoverage_of_joins line older joins, logLines_append, logLines_append]
    simp [logLines, Nat.add_assoc]

/-- Settles O56: the line joins, opens a segment, or opens one behind a merge. -/
theorem coverageEntersOneLine : Obligations.CoverageEntersOneLine := by
  intro line cls log
  refine ⟨fun older newest same joins => ?_, fun empty => ?_, fun opens => ⟨fun room => ?_, fun a b rest same full => ?_⟩,
    logLines_enterCoverage line cls log, fun fits => enterCoverage_length_le line cls fits⟩
  · rw [same, enterCoverage_of_joins line older joins]
  · rw [empty]
    rfl
  · rw [enterCoverage_of_opens line opens, if_neg (Nat.not_le.2 room)]
  · rw [enterCoverage_of_opens line opens, if_pos full.ge, same, ← worse_eq]
    rfl

/-! ### A handled line (R89), and the counters of the receiver (R25 to R33) -/

section
variable (s : State) (m : ChannelId)

theorem State.channelCount_entered (line : Nat) (r : Recipe) (out : LineOutcome) (k : ChannelCounter) :
    (s.entered m line r out).channelCount m k =
      s.channelCount m k + if k = .obscuredLines then BitVec.ofNat 32 ((s.channel m).sees r out).toNat else 0 := by
  unfold State.entered
  dsimp only
  rw [State.channelCount_raiseChannel, State.channelCount_modLp]

theorem emissionCount_of_other {k : ChannelCounter} (other : k ≠ .recordsEmitted ∧ k ≠ .tooShort) (minMm : Nat)
    (rs : List DefectRecord) : emissionCount minMm rs k = 0 := by
  obtain ⟨emitted, short⟩ := other
  rw [emissionCount, if_neg emitted, if_neg short, add_zero]

/-- A counter of the receiver is none of those that the line and its records move. -/
theorem ofReceiver_other {k : ChannelCounter} (own : ofReceiver k = true) :
    (k ≠ .recordsEmitted ∧ k ≠ .tooShort) ∧ k ≠ .obscuredLines ∧ k ≠ .softEntries ∧ k ≠ .hardEntries := by
  cases k <;> simp [ofReceiver] at own ⊢

theorem runCounts_of_receiver {k : ChannelCounter} (own : ofReceiver k = true) (runs : LineRuns) : runCounts runs k = 0 := by
  cases k <;> simp [ofReceiver, runCounts] at own ⊢

theorem associationCounts_of_receiver {k : ChannelCounter} (own : ofReceiver k = true) (a : Association) :
    associationCounts a k = 0 := by
  cases k <;> simp [ofReceiver, associationCounts] at own ⊢

section
variable {k : ChannelCounter} (own : ofReceiver k = true)
include own

theorem State.receiverCount_processLine (line : Nat) (r : Recipe) (clear : Bool) (out : LineOutcome) :
    (s.processLine m line r clear out).channelCount m k = s.channelCount m k := by
  obtain ⟨emission, -⟩ := ofReceiver_other own
  unfold State.processLine
  split
  · split
    · rw [State.channelCount_processActive, runCounts_of_receiver own, associationCounts_of_receiver own,
        emissionCount_of_other emission, add_zero, add_zero, add_zero]
    · exact State.channelCount_holdTracks ..
  · split
    · rw [State.channelCount_holdTracks, State.channelCount_modLp]
    · exact State.channelCount_holdTracks ..
  · exact State.channelCount_holdTracks ..

theorem State.receiverCount_enterHardLock (cause : HardCause) (line : Nat) :
    (s.enterHardLock m cause line).channelCount m k = s.channelCount m k := by
  obtain ⟨emission, -, -, hard⟩ := ofReceiver_other own
  rw [State.channelCount_enterHardLock, emissionCount_of_other emission, if_neg hard, add_zero, add_zero]

theorem State.receiverCount_finishLine (line : Nat) (e : EndOfLine) :
    (s.finishLine m line e).channelCount m k = s.channelCount m k := by
  obtain ⟨-, -, soft, -⟩ := ofReceiver_other own
  cases e with
  | stay => rfl
  | enterSoft left =>
    rw [State.finishLine, State.channelCount_of_channels (State.lockNotice_channels ..), State.channelCount_raiseChannel,
      State.channelCount_modLp, if_neg soft, add_zero]
  | leaveSoft left =>
    rw [State.finishLine, State.channelCount_of_channels (State.lockNotice_channels ..), State.channelCount_modLp]
  | enterHard cause => exact s.receiverCount_enterHardLock m own cause line

theorem State.receiverCount_handleLine (x : Settlement) :
    (s.handleLine m x).channelCount m k = s.channelCount m k := by
  obtain ⟨-, obscured, -⟩ := ofReceiver_other own
  cases handles : (s.channel m).lp.state.handles with
  | false => rw [State.handleLine_of_not_handles handles]
  | true =>
    cases recipe : recipeAt (s.strandOf m).history x.coord with
    | none => rw [State.handleLine_of_no_recipe x recipe]
    | some r =>
      rw [State.handleLine_of_handles handles x recipe, State.receiverCount_finishLine _ m own,
        State.receiverCount_processLine _ m own, State.channelCount_entered, if_neg obscured, add_zero]

theorem State.receiverCount_settle (last : Byte) (x : Settlement) :
    (s.settle m last x).channelCount m k = s.channelCount m k := by
  rw [State.settle, State.receiverCount_handleLine _ m own, State.endAwait, State.channelCount_modRx]

theorem State.receiverCount_headFault (coord : Nat) : (s.headFault m coord).channelCount m k = s.channelCount m k := by
  unfold State.headFault
  split
  iterate 3 exact s.receiverCount_enterHardLock m own .head coord
  all_goals rfl

end

/-! ### The coverage log of a handled line (R89) -/

theorem State.processLine_log (line : Nat) (r : Recipe) (clear : Bool) (out : LineOutcome) :
    ((s.processLine m line r clear out).channel m).lp.log = (s.channel m).lp.log := by
  unfold State.processLine
  split
  · split
    · rw [State.processActive_channel, activeLp]
    · rw [State.holdTracks_channel]
  · split
    · rw [State.holdTracks_channel, State.modLp_eq, State.channel_putChannel_self, warmupLp]
    · rw [State.holdTracks_channel]
  · rw [State.holdTracks_channel]

theorem State.finishLine_log (line : Nat) (e : EndOfLine) :
    ((s.finishLine m line e).channel m).lp.log = (s.channel m).lp.log := by
  cases e with
  | stay => rfl
  | enterSoft left =>
    rw [State.finishLine, channel_eq_of_channels (State.lockNotice_channels ..), State.raiseChannel_channel,
      State.modLp_eq, State.channel_putChannel_self]
  | leaveSoft left =>
    rw [State.finishLine, channel_eq_of_channels (State.lockNotice_channels ..), State.modLp_eq,
      State.channel_putChannel_self]
  | enterHard cause =>
    rw [State.finishLine, State.enterHardLock_channel]
    rfl

/-- The line that is handled is entered once, in the class of the channel that handles it (R89). -/
theorem State.handleLine_log (handles : (s.channel m).lp.state.handles = true) (x : Settlement) {r : Recipe}
    (recipe : recipeAt (s.strandOf m).history x.coord = some r) :
    ((s.handleLine m x).channel m).lp.log =
      enterCoverage x.coord (coverageClass (s.channel m).lp.state x.outcome.lost ((s.channel m).sees r x.outcome))
        (s.channel m).lp.log := by
  rw [State.handleLine_of_handles handles x recipe, State.finishLine_log, State.processLine_log, State.entered_channel]

end

theorem handles_iff (st : ChannelState) : st.handles = true ↔ st ≠ .disabled ∧ st ≠ .idle := by
  cases st <;> simp [ChannelState.handles]

theorem recipeAt_isSome_iff (h : List HistoryEntry) (line : Nat) :
    (∃ r, recipeAt h line = some r) ↔ ∃ e ∈ h, e.coord ≤ line := by
  rw [recipeAt, entryAt]
  constructor
  · rintro ⟨r, given⟩
    obtain ⟨e, last, -⟩ := Option.map_eq_some_iff.1 given
    have kept := List.mem_of_getLast? last
    rw [List.mem_filter, decide_eq_true_iff] at kept
    exact ⟨e, kept⟩
  · rintro ⟨e, mem, below⟩
    have kept : e ∈ h.filter (fun e => decide (e.coord ≤ line)) := List.mem_filter.2 ⟨mem, decide_eq_true below⟩
    rw [List.getLast?_eq_some_getLast (List.ne_nil_of_mem kept)]
    exact ⟨_, rfl⟩

/-- A line that a channel handles has a recipe. -/
theorem State.Handles.recipe {s : State} {m : ChannelId} {line : Nat} (handles : s.Handles m line) :
    (s.channel m).lp.state.handles = true ∧ ∃ r, recipeAt (s.strandOf m).history line = some r := by
  obtain ⟨enabled, casting, entry⟩ := handles
  exact ⟨(handles_iff _).2 ⟨enabled, casting⟩, (recipeAt_isSome_iff _ _).2 entry⟩

end Sys2Proof.Machine

/-! The scan link in a cast: what ends the await of a line, and what the settlement leaves (02, R23 to R33). -/

namespace Sys2Proof.Machine

/-! ### A state that differs in one channel's receiver and counters -/

/-- `u` is `s` but for the receiver and the counters of channel m. -/
def OnlyReceived (m : ChannelId) (s u : State) : Prop :=
  ∃ rx stats, u = s.putChannel m { s.channel m with rx := rx, stats := stats }

namespace OnlyReceived
variable {s u v : State} {m : ChannelId}

theorem refl (s : State) (m : ChannelId) : OnlyReceived m s s :=
  ⟨(s.channel m).rx, (s.channel m).stats, (s.putChannel_self m).symm⟩

theorem trans (a : OnlyReceived m s u) (b : OnlyReceived m u v) : OnlyReceived m s v := by
  obtain ⟨rx, stats, rfl⟩ := a
  obtain ⟨rx', stats', rfl⟩ := b
  exact ⟨rx', stats', by rw [State.channel_putChannel_self, State.putChannel_putChannel]⟩

theorem modRx (s : State) (m : ChannelId) (f : Receiver → Receiver) : OnlyReceived m s (s.modRx m f) :=
  ⟨f (s.channel m).rx, (s.channel m).stats, rfl⟩

theorem raiseChannel (s : State) (m : ChannelId) (k : ChannelCounter) (n : Nat) :
    OnlyReceived m s (s.raiseChannel m k n) :=
  ⟨(s.channel m).rx, _, rfl⟩

theorem kept (h : OnlyReceived m s u) : LineKept m s u := by
  obtain ⟨rx, stats, rfl⟩ := h
  exact .putChannel m s _ rfl

theorem strands (h : OnlyReceived m s u) : u.strands = s.strands := by
  obtain ⟨rx, stats, rfl⟩ := h
  rfl

theorem hli (h : OnlyReceived m s u) : u.hli = s.hli := by
  obtain ⟨rx, stats, rfl⟩ := h
  rfl

theorem channel (h : OnlyReceived m s u) :
    u.channel m = { s.channel m with rx := (u.channel m).rx, stats := (u.channel m).stats } := by
  obtain ⟨rx, stats, rfl⟩ := h
  rw [State.channel_putChannel_self]

theorem lp (h : OnlyReceived m s u) : (u.channel m).lp = (s.channel m).lp := by rw [h.channel]
theorem cfg (h : OnlyReceived m s u) : (u.channel m).cfg = (s.channel m).cfg := by rw [h.channel]
theorem tt (h : OnlyReceived m s u) : (u.channel m).tt = (s.channel m).tt := by rw [h.channel]

theorem strand (h : OnlyReceived m s u) (n : StrandId) : u.strand n = s.strand n := strand_eq_of_strands h.strands n

theorem strandOf (h : OnlyReceived m s u) : u.strandOf m = s.strandOf m := by
  rw [State.strandOf, State.strandOf, h.cfg, h.strand]

theorem handles_iff (h : OnlyReceived m s u) (line : Nat) : u.Handles m line ↔ s.Handles m line := by
  unfold State.Handles
  rw [h.lp, h.cfg, h.strand]

end OnlyReceived

section
variable {s : State} {m : ChannelId}

theorem State.hunt_received (s : State) (m : ChannelId) : OnlyReceived m s (s.hunt m) := .modRx ..

theorem State.setAside_received (s : State) (m : ChannelId) (k : ChannelCounter) : OnlyReceived m s (s.setAside m k) := by
  rw [← State.raiseChannel_hunt]
  exact (s.hunt_received m).trans (.raiseChannel ..)

theorem State.endAwait_received (s : State) (m : ChannelId) (last : Option Byte) :
    OnlyReceived m s (s.endAwait m last) := .modRx ..

theorem State.setAside_count (s : State) (m : ChannelId) (k c : ChannelCounter) :
    (s.setAside m c).channelCount m k = s.channelCount m k + if k = c then 1 else 0 := by
  rw [← State.raiseChannel_hunt, State.channelCount_raiseChannel, State.hunt, State.channelCount_modRx]
  rfl

/-! ### The settlement of the awaited line (R32) -/

/-- A settlement out of a state in which the receiver has counted one frame or one expiry. -/
theorem Settles.settle {u : State} (received : OnlyReceived m s u) {c : ChannelCounter} (own : ofReceiver c = true)
    (once : u.channelCount m c = s.channelCount m c + 1)
    (others : ∀ k, ofReceiver k = true → k ≠ c → k ≠ .groupCheck → u.channelCount m k = s.channelCount m k)
    (last : Byte) (x : Settlement) :
    Settles m x.coord last (u.channel m).rx.tagOffset (u.channel m).rx.framing c s (u.settle m last x) := by
  refine ⟨?_, ?_, fun k ofRx other notGroups => ?_, fun handles => ?_, received.kept.trans (.settle ..)⟩
  · rw [State.settle_rx]
  · rw [State.receiverCount_settle u m own, once]
  · rw [State.receiverCount_settle u m ofRx, others k ofRx other notGroups]
  · have awaited : OnlyReceived m s (u.endAwait m (some last)) := received.trans (u.endAwait_received m _)
    obtain ⟨handled, r, recipe⟩ := ((awaited.handles_iff x.coord).2 handles).recipe
    rw [State.settle, State.handleLine_log _ m handled x recipe, logLines_enterCoverage, awaited.lp]

/-- The line settled when the frame or the expiry is all that was counted. -/
theorem State.setAside_settles (s : State) (m : ChannelId) {c : ChannelCounter} (own : ofReceiver c = true) (last : Byte)
    (x : Settlement) :
    Settles m x.coord last (s.channel m).rx.tagOffset .hunting c s ((s.setAside m c).settle m last x) := by
  have settles := Settles.settle (s.setAside_received m c) own (by rw [State.setAside_count, if_pos rfl])
    (fun k _ other _ => by rw [State.setAside_count, if_neg other, add_zero]) last x
  rw [State.setAside, State.channel_putChannel_self] at settles
  exact settles

/-! ### Discarded lines (R25, R32) -/

theorem exec_of_failsFraming (runs : s.Runs) {c : Instr} (fails : s.FailsFraming m c) :
    exec c s = .next ((s.hunt m).framingFailure m) := by
  rcases fails with ⟨rfl, h, receiving⟩ | ⟨rfl, hunting⟩ | ⟨f, rfl, receiving, length, crc⟩ | ⟨f, rfl, hunting, groups⟩
  · exact exec_scanGapTimeout_of_receiving runs receiving
  · exact exec_scanGapTimeout_of_hunting runs hunting
  · have fails : scanCrc f ≠ f.crc := fun same => crc same.symm
    rw [exec_scanFrame_of_receiving runs receiving length, if_neg fails]
  · have undelimited : groupsDelimit f.header = false := by
      rw [Bool.eq_false_iff, Ne, groupsDelimit_iff]
      omega
    exact exec_scanFrame_of_hunting runs hunting undelimited

theorem State.framingFailure_hunt_of_inCast (cast : s.InCast m) :
    (s.hunt m).framingFailure m = (s.hunt m).discard m .frameError := by
  rw [State.framingFailure, State.inCast_hunt, (s.inCast_iff m).2 cast, if_pos rfl]

/-- R25 check 4: a frame with its own head id, no HEAD_FAULT and another number of column groups. -/
theorem State.classify_hunt_of_format {f : ScanFrame} (cast : s.InCast m)
    (own : f.header.headId = (s.channel m).cfg.headId) (good : f.header.status.getLsbD 0 = false)
    (groups : f.header.groups.toNat ≠ (s.channel m).cfg.groups) :
    (s.hunt m).classify m f = (s.hunt m).discard m .format := by
  simp only [State.classify, State.inCast_hunt, (s.inCast_iff m).2 cast, State.channel_hunt, Bool.not_true,
    Bool.false_eq_true, if_false, own, good, groups, ne_eq, not_true_eq_false, if_pos, not_false_eq_true]

theorem State.discard_hunt_of_quiet (cause : DiscardCause) (quiet : (s.channel m).rx.await = .quiet) :
    (s.hunt m).discard m cause = s.setAside m cause.counter := by
  rw [State.discard_quiet cause (by rw [State.channel_hunt]; exact quiet), State.raiseChannel_hunt]

theorem State.discard_hunt_of_awaiting (cause : DiscardCause) {k line : Nat} {expected : Byte}
    (awaiting : (s.channel m).rx.await = .awaiting k line expected) :
    (s.hunt m).discard m cause =
      (s.setAside m cause.counter).settle m expected ⟨k, line, .discarded cause⟩ := by
  rw [State.discard_awaiting cause (by rw [State.channel_hunt]; exact awaiting), State.raiseChannel_hunt]

theorem DiscardCause.counter_ofReceiver (cause : DiscardCause) : ofReceiver cause.counter = true := by
  cases cause <;> rfl

/-- Settles O49: each fault reaches the discard with the receiver HUNTING. -/
theorem faultyFramesDiscardTheLine : Obligations.FaultyFramesDiscardTheLine := by
  intro s m c k runs cast faulty
  obtain ⟨cause, rfl, next⟩ : ∃ cause : DiscardCause, cause.counter = k ∧ exec c s = .next ((s.hunt m).discard m cause) := by
    rcases faulty with ⟨rfl, fails⟩ | ⟨rfl, f, rfl, completes, own, good, groups⟩
    · exact ⟨.frameError, rfl, by rw [exec_of_failsFraming runs fails, State.framingFailure_hunt_of_inCast cast]⟩
    · exact ⟨.format, rfl, by
        rw [exec_scanFrame_of_completes runs completes, State.classify_hunt_of_format cast own good groups]⟩
  refine ⟨fun quiet => by rw [next, State.discard_hunt_of_quiet cause quiet], fun line coord expected awaiting => ?_⟩
  refine ⟨_, by rw [next, State.discard_hunt_of_awaiting cause awaiting],
    s.setAside_settles m cause.counter_ofReceiver expected ⟨line, coord, .discarded cause⟩, ?_⟩
  rw [State.receiverCount_settle _ m (k := .groupCheck) rfl, State.setAside_count, if_neg (by cases cause <;> decide), add_zero]

/-! ### The tag test of an awaited line (R27, R28, R33) -/

theorem State.testTag_hunt_of_expected {f : ScanFrame} {k line : Nat}
    (awaiting : (s.channel m).rx.await = .awaiting k line f.header.tag) :
    (s.hunt m).testTag m f = (s.hunt m).takeLine m k line f.header.tag f := by
  simp only [State.testTag, State.channel_hunt, awaiting, if_true]

theorem State.testTag_hunt_of_mismatch {f : ScanFrame} {k line : Nat} {expected : Byte}
    (awaiting : (s.channel m).rx.await = .awaiting k line expected) (other : f.header.tag ≠ expected)
    (early : f.header.tag ≠ expected - 1) :
    (s.hunt m).testTag m f = (s.hunt m).tagMismatch m k line f.header.tag := by
  simp only [State.testTag, State.channel_hunt, awaiting, if_neg other, if_neg early]

theorem groupsOf_eq : ∀ (n : Nat) (bytes : List Byte),
    groupsOf n bytes = (List.range n).map fun g => (bytes.drop (13 * g)).take 13
  | 0, _ => rfl
  | n + 1, bytes => by
    rw [groupsOf, groupsOf_eq n, List.range_succ_eq_map, List.map_cons, List.map_map, Nat.mul_zero, List.drop_zero]
    simp only [Function.comp_def, List.drop_drop, Nat.mul_succ, Nat.add_comm]

theorem groupFails_eq (bytes : List Byte) (g : Nat) :
    groupFails ((bytes.drop (13 * g)).take 13) =
      (((bytes.drop (13 * g)).take 12).foldl (· ^^^ ·) 0#8 != bytes.getD (13 * g + 12) 0#8) := by
  have check : ((bytes.drop (13 * g)).take 13).getD 12 0 = bytes.getD (13 * g + 12) 0#8 := by
    rw [List.getD_eq_getElem?_getD, List.getElem?_take_of_lt (by decide), List.getElem?_drop,
      List.getD_eq_getElem?_getD]
    rfl
  rw [groupFails, groupPasses, check, List.take_take]
  rfl

theorem failingGroups_eq (f : ScanFrame) :
    failingGroups f =
      ((List.range f.header.groups.toNat).filter fun g =>
        ((f.groupBytes.drop (13 * g)).take 12).foldl (· ^^^ ·) 0#8 != f.groupBytes.getD (13 * g + 12) 0#8).length := by
  rw [failingGroups, groupsOf_eq, List.filter_map, List.length_map]
  simp only [Function.comp_def, groupFails_eq]

/-- The frame taken is counted, with its group-check failures, before its line is settled (R33). -/
def State.counted (s : State) (m : ChannelId) (f : ScanFrame) : State :=
  ((s.hunt m).raiseChannel m .groupCheck (failingGroups f)).raiseChannel m .linesTaken

theorem State.counted_received (s : State) (m : ChannelId) (f : ScanFrame) : OnlyReceived m s (s.counted m f) :=
  ((s.hunt_received m).trans (.raiseChannel ..)).trans (.raiseChannel ..)

theorem State.counted_count (s : State) (m : ChannelId) (f : ScanFrame) (k : ChannelCounter) :
    (s.counted m f).channelCount m k =
      s.channelCount m k + (if k = .groupCheck then BitVec.ofNat 32 (failingGroups f) else 0) +
        if k = .linesTaken then BitVec.ofNat 32 1 else 0 := by
  rw [State.counted, State.channelCount_raiseChannel, State.channelCount_raiseChannel, State.hunt,
    State.channelCount_modRx]

theorem State.counted_rx (s : State) (m : ChannelId) (f : ScanFrame) :
    ((s.counted m f).channel m).rx = { (s.channel m).rx with framing := .hunting } := by
  rw [State.counted, State.raiseChannel_rx, State.raiseChannel_rx, State.channel_hunt]

theorem exec_takeLine {f : ScanFrame} {k line : Nat} (runs : s.Runs) (cast : s.InCast m) (completes : s.Completes m f)
    (accepts : s.Accepts m f) (awaiting : (s.channel m).rx.await = .awaiting k line f.header.tag) :
    exec (.scanFrame m f) s =
      .next ((s.counted m f).settle m f.header.tag ⟨k, line, .taken (frameSamples f)⟩) := by
  rw [exec_scanFrame_of_completes runs completes, State.classify_hunt_of_accepts cast accepts,
    State.testTag_hunt_of_expected awaiting]
  rfl

/-- Settles O51: the two counters are raised, and the settlement touches neither. -/
theorem expectedFramesAreTaken : Obligations.ExpectedFramesAreTaken := by
  intro s m f k coord runs cast completes accepts awaiting
  have settles := Settles.settle (s.counted_received m f) (c := .linesTaken) rfl
    (by rw [State.counted_count, if_neg (by decide), if_pos rfl, add_zero]; rfl)
    (fun j _ other notGroups => by rw [State.counted_count, if_neg notGroups, if_neg other, add_zero, add_zero])
    f.header.tag ⟨k, coord, .taken (frameSamples f)⟩
  rw [State.counted_rx] at settles
  refine ⟨_, exec_takeLine runs cast completes accepts awaiting, settles, ?_⟩
  rw [State.receiverCount_settle _ m (k := .groupCheck) rfl, State.counted_count, if_pos rfl, if_neg (by decide), add_zero,
    failingGroups_eq]

/-- At a mismatch the line is discarded, and then the receiver takes the offset of the tag received (R28; log 12). -/
theorem exec_tagMismatch {f : ScanFrame} {k line : Nat} {expected : Byte} (runs : s.Runs) (cast : s.InCast m)
    (completes : s.Completes m f) (accepts : s.Accepts m f)
    (awaiting : (s.channel m).rx.await = .awaiting k line expected) (other : f.header.tag ≠ expected)
    (early : f.header.tag ≠ expected - 1) :
    exec (.scanFrame m f) s =
      .next ((((s.setAside m .tagMismatch).settle m f.header.tag ⟨k, line, .discarded .tagMismatch⟩).modRx m fun rx =>
        { rx with tagOffset := f.header.tag - BitVec.ofNat 8 k }).resyncNotice m line f.header.tag
          (s.channel m).rx.tagOffset (f.header.tag - BitVec.ofNat 8 k)) := by
  rw [exec_scanFrame_of_completes runs completes, State.classify_hunt_of_accepts cast accepts,
    State.testTag_hunt_of_mismatch awaiting other early, State.tagMismatch]
  simp only [DiscardCause.counter, State.raiseChannel_hunt, State.channel_hunt]

/-- A settlement whose receiver takes another offset afterwards, and whose link takes a notice. -/
theorem Settles.resync {t : State} {line : Nat} {last old : Byte} {framing : Framing} {c : ChannelCounter}
    (settles : Settles m line last old framing c s t) (new : Byte) (kind : NoticeKind) (body : List Byte) :
    Settles m line last new framing c s ((t.modRx m fun rx => { rx with tagOffset := new }).offer kind body) := by
  obtain ⟨rx, once, others, logged, kept⟩ := settles
  have channel : ((t.modRx m fun rx => { rx with tagOffset := new }).offer kind body).channel m =
      { t.channel m with rx := { (t.channel m).rx with tagOffset := new } } := by
    rw [State.offer_channel, State.modRx_eq, State.channel_putChannel_self]
  have count : ∀ k, ((t.modRx m fun rx => { rx with tagOffset := new }).offer kind body).channelCount m k =
      t.channelCount m k := fun k => by
    unfold State.channelCount
    rw [channel]
  refine ⟨by rw [channel, rx], by rw [count, once], fun k ofRx other notGroups => ?_, fun handles => ?_,
    (kept.trans (.modRx ..)).trans (.offer ..)⟩
  · rw [count, others k ofRx other notGroups]
  · rw [channel, logged handles]

/-- Settles O52. -/
theorem tagMismatchesResynchronise : Obligations.TagMismatchesResynchronise := by
  intro s m f k coord expected runs cast completes accepts awaiting other early
  have settles := s.setAside_settles m (c := .tagMismatch) rfl f.header.tag ⟨k, coord, .discarded .tagMismatch⟩
  have next := exec_tagMismatch runs cast completes accepts awaiting other early
  generalize (s.setAside m .tagMismatch).settle m f.header.tag ⟨k, coord, .discarded .tagMismatch⟩ = t at settles next
  have ⟨_, _, _, _, settled⟩ := settles
  have kept : LineKept m s (t.modRx m fun rx => { rx with tagOffset := f.header.tag - BitVec.ofNat 8 k }) :=
    settled.trans (.modRx ..)
  rw [State.resyncNotice, kept.cfg_eq m] at next
  exact ⟨_, next, settles.resync _ _ _, _, kept.grows, rfl⟩

/-! ### The wait of a line ends (R31) -/

theorem exec_lineWaitExpiry_of_awaiting {k line : Nat} {expected : Byte} (runs : s.Runs)
    (awaiting : (s.channel m).rx.await = .awaiting k line expected) (j : Nat) :
    exec (.lineWaitExpiry m j) s = .next (if j = k then s.settleMissed m else s) := by
  change execLineWaitExpiry m j s = _
  rw [execLineWaitExpiry, whileRunning_of_runs runs]
  simp only [awaiting]

/-- Settles O53. -/
theorem expiredWaitsAreMissed : Obligations.ExpiredWaitsAreMissed := by
  intro s m k coord expected runs awaiting
  have settles := Settles.settle (OnlyReceived.raiseChannel s m .missed 1) (c := .missed) rfl
    (by rw [State.channelCount_raiseChannel, if_pos rfl]; rfl)
    (fun j _ other _ => by rw [State.channelCount_raiseChannel, if_neg other, add_zero]) expected ⟨k, coord, .missed⟩
  rw [State.raiseChannel_rx] at settles
  refine ⟨⟨_, by rw [exec_lineWaitExpiry_of_awaiting runs awaiting, if_pos rfl, State.settleMissed_awaiting awaiting],
    settles, ?_⟩, fun j other => by rw [exec_lineWaitExpiry_of_awaiting runs awaiting, if_neg other]⟩
  rw [State.receiverCount_settle _ m (k := .groupCheck) rfl, State.channelCount_raiseChannel, if_neg (by decide), add_zero]

end

end Sys2Proof.Machine

/-! The locks of a channel at the end of a line that is not processed (05, R76 to R81, R84, R85, R87, R89, R98). -/

namespace Sys2Proof.Machine

/-! ### The face of an open billet (R124, R125) -/

/-- The flags of a face with HARD_LOCKED set. -/
def flagLocked (flags : Option FaceFlags) : Option FaceFlags := flags.map fun g => { g with hardLocked := true }

theorem flagLocked_flagLocked (flags : Option FaceFlags) : flagLocked (flagLocked flags) = flagLocked flags := by
  cases flags <;> rfl

/-- An open billet stays open under its number and head, and the flags of one face go as `how` says. -/
def FaceGoes (f : Face) (how : Option FaceFlags → Option FaceFlags → Prop) (x y : Option OpenBillet) : Prop :=
  ∀ b, x = some b → ∃ b', y = some b' ∧ b'.number = b.number ∧ b'.head = b.head ∧
    how b.faces[faceIndex f] b'.faces[faceIndex f]

/-- The flags of a face stand, or HARD_LOCKED is set. -/
def StaysOrLocks (before after : Option FaceFlags) : Prop := after = before ∨ after = flagLocked before

theorem FaceGoes.trans {f : Face} {p q r : Option FaceFlags → Option FaceFlags → Prop} {x y z : Option OpenBillet}
    (a : FaceGoes f p x y) (b : FaceGoes f q y z) (both : ∀ u v w, p u v → q v w → r u w) : FaceGoes f r x z := by
  intro d open_
  obtain ⟨e, opene, number, head, goes⟩ := a d open_
  obtain ⟨g, openg, number', head', goes'⟩ := b e opene
  exact ⟨g, openg, number'.trans number, head'.trans head, both _ _ _ goes goes'⟩

theorem FaceGoes.refl (f : Face) {how : Option FaceFlags → Option FaceFlags → Prop} (stays : ∀ u, how u u)
    (x : Option OpenBillet) : FaceGoes f how x x := fun b open_ => ⟨b, open_, rfl, rfl, stays _⟩

theorem StaysOrLocks.trans (u v w : Option FaceFlags) (a : StaysOrLocks u v) (b : StaysOrLocks v w) : StaysOrLocks u w := by
  obtain rfl | rfl := a
  · exact b
  · obtain rfl | rfl := b
    · exact .inr rfl
    · exact .inr (flagLocked_flagLocked u)

theorem StaysOrLocks.then_locks (u v w : Option FaceFlags) (a : StaysOrLocks u v) (b : w = flagLocked v) :
    w = flagLocked u := by
  obtain rfl | rfl := a
  · exact b
  · exact b.trans (flagLocked_flagLocked u)

theorem locks_then_staysOrLocks (u v w : Option FaceFlags) (a : v = flagLocked u) (b : StaysOrLocks v w) :
    w = flagLocked u := by
  subst a
  obtain rfl | rfl := b
  · rfl
  · exact flagLocked_flagLocked u

/-! ### States that agree about the locks of a channel -/

/-- `t` agrees with `s` about the locks of channel m: line processor, tracks, configuration and the counters that its
receiver does not raise, and the open billet of its strand but for HARD_LOCKED on a face, which may have been set. -/
structure SameLocks (m : ChannelId) (s t : State) : Prop where
  lp : (t.channel m).lp = (s.channel m).lp
  tt : (t.channel m).tt = (s.channel m).tt
  cfg : (t.channel m).cfg = (s.channel m).cfg
  strandCfg : (t.strandOf m).cfg = (s.strandOf m).cfg
  counts : ∀ k, ofReceiver k = false → t.channelCount m k = s.channelCount m k
  billet : ∀ f, FaceGoes f StaysOrLocks (s.strandOf m).billet (t.strandOf m).billet

namespace SameLocks
variable {m : ChannelId} {s t u : State}

theorem refl (m : ChannelId) (s : State) : SameLocks m s s :=
  ⟨rfl, rfl, rfl, rfl, fun _ _ => rfl, fun f => .refl f (fun _ => .inl rfl) _⟩

theorem trans (a : SameLocks m s t) (b : SameLocks m t u) : SameLocks m s u where
  lp := b.lp.trans a.lp
  tt := b.tt.trans a.tt
  cfg := b.cfg.trans a.cfg
  strandCfg := b.strandCfg.trans a.strandCfg
  counts k other := (b.counts k other).trans (a.counts k other)
  billet f := (a.billet f).trans (b.billet f) StaysOrLocks.trans

theorem of_received (received : OnlyReceived m s u)
    (counts : ∀ k, ofReceiver k = false → u.channelCount m k = s.channelCount m k) : SameLocks m s u where
  lp := received.lp
  tt := received.tt
  cfg := received.cfg
  strandCfg := by rw [received.strandOf]
  counts := counts
  billet f := received.strandOf ▸ .refl f (fun _ => .inl rfl) _

theorem setAside (s : State) (m : ChannelId) {c : ChannelCounter} (own : ofReceiver c = true) :
    SameLocks m s (s.setAside m c) :=
  of_received (s.setAside_received m c) fun k other => by
    rw [State.setAside_count, if_neg (by rintro rfl; rw [own] at other; exact nomatch other), add_zero]

theorem modRx (s : State) (m : ChannelId) (f : Receiver → Receiver) : SameLocks m s (s.modRx m f) :=
  of_received (.modRx ..) fun k _ => s.channelCount_modRx m f k

theorem raiseChannel (s : State) (m : ChannelId) {c : ChannelCounter} (own : ofReceiver c = true) (n : Nat) :
    SameLocks m s (s.raiseChannel m c n) :=
  of_received (.raiseChannel ..) fun k other => by
    rw [State.channelCount_raiseChannel, if_neg (by rintro rfl; rw [own] at other; exact nomatch other), add_zero]

theorem offer (s : State) (m : ChannelId) (kind : NoticeKind) (body : List Byte) : SameLocks m s (s.offer kind body) where
  lp := by rw [State.offer_channel]
  tt := by rw [State.offer_channel]
  cfg := by rw [State.offer_channel]
  strandCfg := by rw [State.strandOf, State.offer_channel, State.offer_strand]; rfl
  counts k _ := State.channelCount_of_channels (State.offer_channels ..) m k
  billet f := by
    have same : (s.offer kind body).strandOf m = s.strandOf m := by
      rw [State.strandOf, State.offer_channel, State.offer_strand]
      rfl
    rw [same]
    exact .refl f (fun _ => .inl rfl) _

/-- An entry to HARD_LOCK between two states is one between states that agree with them about the locks. -/
theorem locksHard {cause : HardCause} {v : State} (before : SameLocks m s u) (after : SameLocks m v t)
    (locks : LocksHard m cause u v) : LocksHard m cause s t := by
  obtain ⟨lp, free, count, face⟩ := locks
  have marked : FaceGoes (u.channel m).cfg.face (fun a b => b = flagLocked a) (u.strandOf m).billet (v.strandOf m).billet :=
    face
  refine ⟨by rw [after.lp, ← lp], by rw [after.tt]; exact free, ?_, ?_⟩
  · rw [after.counts .hardEntries rfl, count, before.counts .hardEntries rfl]
  · rw [before.cfg] at marked
    exact ((before.billet _).trans marked StaysOrLocks.then_locks).trans (after.billet _) locks_then_staysOrLocks

/-- What a line moves about the locks between two states it moves between states that agree with them. -/
theorem locksMove {coord : Nat} {r : Recipe} {sight : Sight} {seen told : Byte → Byte → Byte → Prop} {v : State}
    (before : SameLocks m s u) (after : SameLocks m v t) (moved : LocksMove m coord r sight seen u v)
    (passed : ∀ left hard cause, seen left hard cause → told left hard cause) :
    LocksMove m coord r sight told s t := by
  have hard {cause : HardCause} (locks : LocksHard m cause u v) : LocksHard m cause s t := before.locksHard after locks
  unfold LocksMove at moved ⊢
  dsimp only at moved ⊢
  rw [after.lp, after.tt]
  rw [before.lp, before.tt, before.strandCfg] at moved
  obtain ⟨log, obscured, unlocked, soft, locked⟩ := moved
  refine ⟨log, fun free => ?_, fun left at_ => ?_, fun left at_ => ?_, fun at_ => ?_⟩
  · rw [after.counts .obscuredLines rfl, obscured free, before.counts .obscuredLines rfl]
  · obtain ⟨dead, few, third⟩ := unlocked left at_
    refine ⟨fun h => (dead h).imp hard (passed _ _ _), few, fun h run => ?_⟩
    obtain ⟨lp, held, count, notice⟩ := third h run
    exact ⟨lp, held, by rw [after.counts .softEntries rfl, count, before.counts .softEntries rfl], passed _ _ _ notice⟩
  · obtain ⟨dead, clears, long, short⟩ := soft left at_
    refine ⟨fun h => (dead h).imp hard (passed _ _ _), fun h run => ?_, fun h run count => ?_, short⟩
    · obtain ⟨lp, held, notice⟩ := clears h run
      exact ⟨lp, held, passed _ _ _ notice⟩
    · exact (long h run count).imp hard (passed _ _ _)
  · obtain ⟨lp, held, counts⟩ := locked at_
    refine ⟨lp, held, fun k own => ?_⟩
    have other : ofReceiver k = false := by
      rcases own with rfl | rfl | rfl <;> rfl
    rw [after.counts k other, counts k own, before.counts k other]

end SameLocks

end Sys2Proof.Machine

/-! A line that is not processed: entered, held, and its end applied to the locks (05, R76 to R81, R84, R85). -/

namespace Sys2Proof.Machine

section
variable (s : State) (m : ChannelId)

/-! ### What the line shows (R76, R77) -/

/-- What the settlement shows of the face. -/
def Channel.sightOf (c : Channel) (r : Recipe) (out : LineOutcome) : Sight :=
  if out.lost then .lost else if takenObscured r c.cfg.groups c.lp out then .obscured else .clear

section
variable {c : Channel} {r : Recipe} {out : LineOutcome}

theorem Channel.sightOf_lost : c.sightOf r out = .lost ↔ out.lost = true := by
  unfold Channel.sightOf
  split
  · simp [*]
  · split <;> simp [*]

theorem Channel.sees_of_unlocked (free : c.hardLocked = false) :
    c.sees r out = decide (c.sightOf r out = .obscured) := by
  unfold Channel.sees Channel.sightOf
  rw [free]
  cases out with
  | taken samples => cases h : takenObscured r c.cfg.groups c.lp (.taken samples) <;> rfl
  | missed | discarded cause => rfl

theorem Channel.clearOn_of_unlocked (free : c.hardLocked = false) :
    c.clearOn r out = decide (c.sightOf r out = .clear) := by
  rw [Channel.clearOn, Channel.sees_of_unlocked free]
  unfold Channel.sightOf
  cases out with
  | taken samples => cases h : takenObscured r c.cfg.groups c.lp (.taken samples) <;> rfl
  | missed | discarded cause => rfl

theorem coverageClass_eq (handles : c.lp.state.handles = true) :
    coverageClass c.lp.state out.lost (c.sees r out) = (c.sightOf r out).coverage c.lp.state := by
  cases st : c.lp.state with
  | disabled | idle => rw [st] at handles; exact nomatch handles
  | hardLock cause => cases c.sightOf r out <;> rfl
  | warmup | active | softLock left =>
    rw [Channel.sees_of_unlocked (by rw [Channel.hardLocked, st])]
    unfold Channel.sightOf
    cases out with
    | taken samples => cases takenObscured r c.cfg.groups c.lp (.taken samples) <;> rfl
    | missed | discarded cause => rfl

/-- An unprocessed line is one that the model holds. -/
theorem Sight.unprocessed_iff (free : c.hardLocked = false) :
    (c.sightOf r out).unprocessed c.lp.state ↔
      c.lp.state.handles = true ∧ c.lp.state.processes (c.clearOn r out) = false := by
  rw [Channel.clearOn_of_unlocked free]
  cases c.lp.state <;> simp [Sight.unprocessed, ChannelState.handles, ChannelState.processes]

end

/-! ### The line held (R96, R98) -/

theorem holdTable_heldBy (pitch line : Nat) (r : Recipe) (tt : TrackTable) :
    HeldBy pitch line r tt (holdTable pitch line r tt) :=
  ⟨rfl, fun i => (slotsOf_get _ i).trans (expireTrack_bind pitch line tt i)⟩

/-- The line entered and held, before its end. -/
def State.heldOver (line : Nat) (r : Recipe) (out : LineOutcome) : State :=
  (s.entered m line r out).holdTracks m line r

section
variable (line : Nat) (r : Recipe) (out : LineOutcome)

theorem State.heldOver_strands : (s.heldOver m line r out).strands = s.strands := rfl

theorem State.heldOver_hli : (s.heldOver m line r out).hli = s.hli := rfl

theorem State.heldOver_channel (handles : (s.channel m).lp.state.handles = true) :
    (s.heldOver m line r out).channel m =
      { s.channel m with
        lp :=
          { filterAfter out.lost ((s.channel m).clearOn r out) (s.channel m).lp with
            log := enterCoverage line (((s.channel m).sightOf r out).coverage (s.channel m).lp.state) (s.channel m).lp.log }
        tt := holdTable (s.strandOf m).cfg.countsPerLine line r (s.channel m).tt
        stats := ((s.heldOver m line r out).channel m).stats } := by
  have cfg : (s.entered m line r out).strandOf m = s.strandOf m := by
    rw [State.strandOf, State.entered_channel]
    rfl
  rw [State.heldOver, State.holdTracks_channel, cfg, State.entered_channel, coverageClass_eq handles]

theorem State.heldOver_cfg : ((s.heldOver m line r out).channel m).cfg = (s.channel m).cfg := by
  rw [State.heldOver, State.holdTracks_channel, State.entered_channel]

theorem State.heldOver_strandOf : (s.heldOver m line r out).strandOf m = s.strandOf m := by
  rw [State.strandOf, State.heldOver_cfg]
  rfl

theorem State.heldOver_count (k : ChannelCounter) :
    (s.heldOver m line r out).channelCount m k =
      s.channelCount m k + if k = .obscuredLines then BitVec.ofNat 32 ((s.channel m).sees r out).toNat else 0 := by
  rw [State.heldOver, State.channelCount_holdTracks, State.channelCount_entered]

end

/-! ### The end of the line (R78 to R81, R84, R87) -/

section
variable {s m} {u : State} (hli : u.hli = s.hli) (cfg : (u.channel m).cfg = (s.channel m).cfg)
include hli cfg

theorem State.lockNotice_hli (left hard : Bool) (cause : LockCause) (coord : Nat) :
    (u.lockNotice m left hard cause coord).hli =
      (s.offer .channelLock (lockBody m (s.channel m).cfg.strand (BitVec.ofNat 8 left.toNat) (BitVec.ofNat 8 hard.toNat)
        (BitVec.ofNat 8 (lockCauseCode cause)) coord)).hli := by
  rw [State.lockNotice, State.offer_hli_congr hli, cfg]
  rfl

theorem State.lockNotice_offered (left hard : Bool) (cause : LockCause) (coord : Nat) :
    LockOffered m (BitVec.ofNat 8 left.toNat) (BitVec.ofNat 8 hard.toNat) (BitVec.ofNat 8 (lockCauseCode cause)) coord s
      (u.lockNotice m left hard cause coord) := by
  rw [LockOffered, State.lockNotice_hli hli cfg]

end

/-- The state of an entry to HARD_LOCK before its notice (R84). -/
def State.hardened (cause : HardCause) : State :=
  (((s.flush m).modLp m (hardLockedLp cause)).raiseChannel m .hardEntries).reportFace m fun f => { f with hardLocked := true }

theorem State.enterHardLock_eq (cause : HardCause) (coord : Nat) :
    s.enterHardLock m cause coord = (s.hardened m cause).lockNotice m false true (hardCauseLock cause) coord := rfl

theorem State.hardened_hli (cause : HardCause) : (s.hardened m cause).hli = s.hli := s.flush_hli m

theorem State.hardened_cfg (cause : HardCause) : ((s.hardened m cause).channel m).cfg = (s.channel m).cfg := by
  rw [State.hardened, channel_eq_of_channels (State.reportFace_channels ..), State.raiseChannel_channel, State.modLp_eq,
    State.channel_putChannel_self, State.flush_channel]

theorem State.flush_billet :
    ((s.flush m).strand (s.channel m).cfg.strand).billet =
      (s.strandOf m).billet.map fun b =>
        { b with
          defectsDropped := b.defectsDropped ||
            decide ((s.strandOf m).room < ((s.channel m).flushEmits m (s.strandOf m).cfg).length) } := by
  rw [State.flush_strand]
  exact (Strand.receiveAll_eq _ (s.strandOf m)).2.1

/-- The entry marks the face of the billet that the flush leaves. -/
theorem State.hardened_billet (cause : HardCause) :
    ((s.hardened m cause).strandOf m).billet =
      ((s.flush m).strand (s.channel m).cfg.strand).billet.map
        (modFace (s.channel m).cfg.face fun f => { f with hardLocked := true }) := by
  have cfg : ((((s.flush m).modLp m (hardLockedLp cause)).raiseChannel m .hardEntries).channel m).cfg = (s.channel m).cfg := by
    rw [State.raiseChannel_channel, State.modLp_eq, State.channel_putChannel_self, State.flush_channel]
  rw [State.strandOf, State.hardened_cfg, State.hardened, State.reportFace, cfg, State.modBillet, State.modStrand_eq,
    State.strand_putStrand_self]
  rfl

theorem modFace_flags (f : Face) (g : FaceFlags → FaceFlags) (b : OpenBillet) :
    (modFace f g b).faces[faceIndex f] = b.faces[faceIndex f].map g := by
  simp [modFace]

/-- An entry to HARD_LOCK flushes the tracks, unseeds, counts, and sets HARD_LOCKED on the face (R84). -/
theorem State.enterHardLock_locksHard (cause : HardCause) (coord : Nat) :
    LocksHard m cause s (s.enterHardLock m cause coord) := by
  refine ⟨?_, ?_, ?_, fun b opened => ?_⟩
  · rw [State.enterHardLock_channel]
    rfl
  · rw [State.enterHardLock_channel]
    exact freeTable_empty _
  · rw [State.channelCount_enterHardLock, emissionCount_of_other (by decide), if_pos rfl, add_zero]
  · have strand : (s.enterHardLock m cause coord).strandOf m = (s.hardened m cause).strandOf m := by
      rw [State.enterHardLock_eq, State.lockNotice, State.strandOf, State.offer_channel, State.offer_strand]
      rfl
    rw [strand, State.hardened_billet, State.flush_billet, opened]
    exact ⟨_, rfl, rfl, rfl, modFace_flags ..⟩

end

end Sys2Proof.Machine

/-! LocksMove for a line that is not processed (05, R76 to R81, R84, R85, R87, R89, R98). -/

namespace Sys2Proof.Machine

/-- The link run as a lost or delivered line leaves it (R77). -/
def LineProcessor.linkAfter (lp : LineProcessor) (sight : Sight) : Nat := if sight = .lost then lp.linkRun + 1 else 0

/-- The clear run of a SOFT_LOCK episode after a line (R79). -/
def LineProcessor.clearAfter (lp : LineProcessor) (sight : Sight) : Nat := if sight = .clear then lp.clearRun + 1 else 0

/-- The line kills the link (R81). -/
abbrev Recipe.killsLink (r : Recipe) (lp : LineProcessor) (sight : Sight) : Prop :=
  sight = .lost ∧ r.missedLimit ≤ lp.linkAfter sight

section
variable {c : Channel} {r : Recipe} {out : LineOutcome}

theorem linkRunAfter_eq (lp : LineProcessor) : linkRunAfter out.lost lp = lp.linkAfter (c.sightOf r out) := by
  unfold linkRunAfter LineProcessor.linkAfter
  simp only [Channel.sightOf_lost]

theorem linkDead_iff {lp after : LineProcessor} (run : after.linkRun = lp.linkAfter (c.sightOf r out)) :
    linkDead r out.lost after = true ↔ r.killsLink lp (c.sightOf r out) := by
  rw [linkDead, run, Bool.and_eq_true, decide_eq_true_iff, Recipe.killsLink, Channel.sightOf_lost]

theorem filterAfter_unclear {lp : LineProcessor} {left : LeftState} (at_ : lp.state = leftChannelState left) (lost : Bool) :
    filterAfter lost false lp = { lp with linkRun := linkRunAfter lost lp, obscuredRun := lp.obscuredRun + 1 } := by
  cases lp
  obtain rfl : _ = leftChannelState left := at_
  cases left <;> rfl

theorem filterAfter_of_left {left : LeftState} (at_ : c.lp.state = leftChannelState left)
    (unclear : c.sightOf r out ≠ .clear) :
    filterAfter out.lost (c.clearOn r out) c.lp =
      { c.lp with linkRun := c.lp.linkAfter (c.sightOf r out), obscuredRun := c.lp.obscuredRun + 1 } := by
  have free : c.hardLocked = false := by cases left <;> rw [Channel.hardLocked, at_] <;> rfl
  have held : c.clearOn r out = false := by rw [Channel.clearOn_of_unlocked free, decide_eq_false unclear]
  rw [← linkRunAfter_eq, held, filterAfter_unclear at_]

theorem filterAfter_softLock {lp : LineProcessor} {left : LeftState} (at_ : lp.state = .softLock left) (lost clear : Bool) :
    filterAfter lost clear lp =
      { lp with
        linkRun := linkRunAfter lost lp
        softCount := lp.softCount + 1
        clearRun := if clear then lp.clearRun + 1 else 0 } := by
  cases lp
  obtain rfl : _ = ChannelState.softLock left := at_
  rfl

theorem filterAfter_of_soft {left : LeftState} (at_ : c.lp.state = .softLock left) :
    filterAfter out.lost (c.clearOn r out) c.lp =
      { c.lp with
        linkRun := c.lp.linkAfter (c.sightOf r out)
        softCount := c.lp.softCount + 1
        clearRun := c.lp.clearAfter (c.sightOf r out) } := by
  have free : c.hardLocked = false := by rw [Channel.hardLocked, at_]
  have clear : (if c.clearOn r out = true then c.lp.clearRun + 1 else 0) = c.lp.clearAfter (c.sightOf r out) := by
    unfold LineProcessor.clearAfter
    rw [Channel.clearOn_of_unlocked free]
    simp only [decide_eq_true_iff]
  rw [← linkRunAfter_eq, ← clear, filterAfter_softLock at_]

theorem filterAfter_of_hard {cause : HardCause} (at_ : c.lp.state = .hardLock cause) (lost clear : Bool) :
    filterAfter lost clear c.lp = c.lp := by
  rw [filterAfter, at_]

theorem endOfLine_of_left {left : LeftState} {lp : LineProcessor} (at_ : lp.state = leftChannelState left) (lost : Bool) :
    endOfLine r lost lp = endUnlocked r lost lp left := by
  cases left <;> rw [endOfLine, at_] <;> rfl

end

section
variable {s : State} {m : ChannelId}

/-- The end of a line moves no counter but those of locks and records. -/
theorem State.finishLine_count {k : ChannelCounter} (emission : k ≠ .recordsEmitted ∧ k ≠ .tooShort)
    (soft : k ≠ .softEntries) (hard : k ≠ .hardEntries) (line : Nat) (e : EndOfLine) :
    (s.finishLine m line e).channelCount m k = s.channelCount m k := by
  cases e with
  | stay => rfl
  | enterSoft left =>
    rw [State.finishLine, State.channelCount_of_channels (State.lockNotice_channels ..), State.channelCount_raiseChannel,
      State.channelCount_modLp, if_neg soft, add_zero]
  | leaveSoft left =>
    rw [State.finishLine, State.channelCount_of_channels (State.lockNotice_channels ..), State.channelCount_modLp]
  | enterHard cause =>
    rw [State.finishLine, State.channelCount_enterHardLock, emissionCount_of_other emission, if_neg hard, add_zero, add_zero]

variable (x : Settlement) {r : Recipe} (recipe : recipeAt (s.strandOf m).history x.coord = some r)
include recipe

/-- The settled line, entered and held, and its end. -/
theorem State.handleLine_of_unprocessed (unprocessed : ((s.channel m).sightOf r x.outcome).unprocessed (s.channel m).lp.state) :
    s.handleLine m x =
      (s.heldOver m x.coord r x.outcome).finishLine m x.coord
        (endOfLine r x.outcome.lost (filterAfter x.outcome.lost ((s.channel m).clearOn r x.outcome) (s.channel m).lp)) := by
  by_cases locked : (s.channel m).hardLocked = true
  · obtain ⟨cause, at_⟩ := (s.channel m).hardLocked_iff.1 locked
    exact State.handleLine_of_held (by rw [at_]; rfl) x recipe (by rw [at_]; rfl)
  · obtain ⟨handles, held⟩ := (Sight.unprocessed_iff (Bool.eq_false_iff.2 locked)).1 unprocessed
    exact State.handleLine_of_held handles x recipe held

omit recipe
variable (line : Nat) (out : LineOutcome)

/-- The line entered and held, by the filter that the lock's state applies. -/
theorem State.heldOver_lp (handles : (s.channel m).lp.state.handles = true) {lp : LineProcessor}
    (filtered : filterAfter out.lost ((s.channel m).clearOn r out) (s.channel m).lp = lp) :
    ((s.heldOver m line r out).channel m).lp =
      { lp with
        log := enterCoverage line (((s.channel m).sightOf r out).coverage (s.channel m).lp.state) (s.channel m).lp.log } := by
  rw [State.heldOver_channel s m line r out handles, filtered]

theorem State.heldOver_heldBy :
    HeldBy (s.strandOf m).cfg.countsPerLine line r (s.channel m).tt ((s.heldOver m line r out).channel m).tt := by
  have tt : ((s.heldOver m line r out).channel m).tt = holdTable (s.strandOf m).cfg.countsPerLine line r (s.channel m).tt := by
    have strand : (s.entered m line r out).strandOf m = s.strandOf m := by
      rw [State.strandOf, State.entered_channel]
      rfl
    rw [State.heldOver, State.holdTracks_channel, strand, State.entered_channel]
  rw [tt]
  exact holdTable_heldBy ..

theorem State.heldOver_locksHard (cause : HardCause) (coord : Nat) :
    LocksHard m cause s ((s.heldOver m line r out).enterHardLock m cause coord) := by
  have ⟨lp, free, count, face⟩ := (s.heldOver m line r out).enterHardLock_locksHard m cause coord
  have face : FaceGoes ((s.heldOver m line r out).channel m).cfg.face (fun a b => b = flagLocked a)
    ((s.heldOver m line r out).strandOf m).billet _ := face
  rw [State.heldOver_strandOf, State.heldOver_cfg] at face
  exact ⟨lp, free, by rw [count, State.heldOver_count, if_neg (by decide), add_zero], face⟩

theorem State.heldOver_hardOffered (cause : HardCause) (coord : Nat) :
    LockOffered m 0x00#8 0x01#8 (BitVec.ofNat 8 (lockCauseCode (hardCauseLock cause))) coord s
      ((s.heldOver m line r out).enterHardLock m cause coord) := by
  have hli : ((s.heldOver m line r out).hardened m cause).hli = s.hli := State.hardened_hli ..
  have cfg := (State.hardened_cfg (s.heldOver m line r out) m cause).trans (s.heldOver_cfg m line r out)
  rw [State.enterHardLock_eq]
  generalize (s.heldOver m line r out).hardened m cause = u at hli cfg
  exact State.lockNotice_offered hli cfg false true _ coord

end

/-- The line that ends in an entry to HARD_LOCK (R80, R81, R84). -/
theorem State.heldOver_enterHard {s : State} {m : ChannelId} {line : Nat} {r : Recipe} {out : LineOutcome} {cause : HardCause} {code : Byte}
    (coded : BitVec.ofNat 8 (lockCauseCode (hardCauseLock cause)) = code) (coord : Nat) :
    LocksHard m cause s ((s.heldOver m line r out).finishLine m coord (.enterHard cause)) ∧
      LockOffered m 0x00#8 0x01#8 code coord s ((s.heldOver m line r out).finishLine m coord (.enterHard cause)) := by
  rw [State.finishLine, ← coded]
  exact ⟨State.heldOver_locksHard line out cause coord, State.heldOver_hardOffered line out cause coord⟩

section
variable {m : ChannelId} (left : LeftState) (coord : Nat)

/-- A line that ends in an entry to SOFT_LOCK (R78). -/
theorem State.finishLine_enterSoft (u : State) :
    ((u.finishLine m coord (.enterSoft left)).channel m).lp =
        { (u.channel m).lp with state := .softLock left, clearRun := 0, softCount := 0 } ∧
      ((u.finishLine m coord (.enterSoft left)).channel m).tt = (u.channel m).tt ∧
      (u.finishLine m coord (.enterSoft left)).channelCount m .softEntries = u.channelCount m .softEntries + 1 := by
  have channels := State.lockNotice_channels
    ((u.modLp m fun lp => { lp with state := .softLock left, clearRun := 0, softCount := 0 }).raiseChannel m .softEntries) m
    false false .obscured coord
  rw [State.finishLine, channel_eq_of_channels channels, State.channelCount_of_channels channels,
    State.channelCount_raiseChannel, State.channelCount_modLp, if_pos rfl, State.raiseChannel_channel, State.modLp_eq,
    State.channel_putChannel_self]
  exact ⟨rfl, rfl, rfl⟩

/-- A line that ends a SOFT_LOCK (R79). -/
theorem State.finishLine_leaveSoft (u : State) :
    ((u.finishLine m coord (.leaveSoft left)).channel m).lp =
        { (u.channel m).lp with state := leftChannelState left, obscuredRun := 0, clearRun := 0, softCount := 0 } ∧
      ((u.finishLine m coord (.leaveSoft left)).channel m).tt = (u.channel m).tt := by
  rw [State.finishLine, channel_eq_of_channels (State.lockNotice_channels ..), State.modLp_eq,
    State.channel_putChannel_self]
  exact ⟨rfl, rfl⟩

section
variable {s u : State} {m : ChannelId} (hli : u.hli = s.hli) (cfg : (u.channel m).cfg = (s.channel m).cfg)
include hli cfg

theorem State.enterSoft_offered :
    LockOffered m 0x00#8 0x00#8 0x00#8 coord s (u.finishLine m coord (.enterSoft left)) := by
  have same : (((u.modLp m fun lp => { lp with state := .softLock left, clearRun := 0, softCount := 0 }).raiseChannel m
      .softEntries).channel m).cfg = (s.channel m).cfg := by
    rw [State.raiseChannel_channel, State.modLp_eq, State.channel_putChannel_self]
    exact cfg
  rw [State.finishLine]
  exact State.lockNotice_offered (by exact hli) same false false .obscured coord

theorem State.leaveSoft_offered :
    LockOffered m 0x01#8 0x00#8 0x04#8 coord s (u.finishLine m coord (.leaveSoft left)) := by
  have same : ((u.modLp m fun lp =>
      { lp with state := leftChannelState left, obscuredRun := 0, clearRun := 0, softCount := 0 }).channel m).cfg =
        (s.channel m).cfg := by
    rw [State.modLp_eq, State.channel_putChannel_self]
    exact cfg
  rw [State.finishLine]
  exact State.lockNotice_offered (by exact hli) same true false .cleared coord

end

end

theorem Sight.coverage_of_hard {st : ChannelState} {cause : HardCause} (at_ : st = .hardLock cause) (sight : Sight) :
    sight.coverage st = .unavailable := by
  rw [at_]
  cases sight <;> rfl

/-! ### The clauses of LocksMove, by the state in which the line finds the channel -/

section
variable {s : State} {m : ChannelId} (x : Settlement) {r : Recipe}
  (recipe : recipeAt (s.strandOf m).history x.coord = some r)
include recipe

theorem State.handleLine_of_left {left : LeftState} (at_ : (s.channel m).lp.state = leftChannelState left)
    (unclear : (s.channel m).sightOf r x.outcome ≠ .clear) :
    let lp := (s.channel m).lp
    let sight := (s.channel m).sightOf r x.outcome
    let held := s.heldOver m x.coord r x.outcome
    s.handleLine m x =
        held.finishLine m x.coord
          (if r.killsLink lp sight then .enterHard .link else if 2 ≤ lp.obscuredRun then .enterSoft left else .stay) ∧
      (held.channel m).lp =
        { lp with
          linkRun := lp.linkAfter sight
          obscuredRun := lp.obscuredRun + 1
          log := enterCoverage x.coord (sight.coverage lp.state) lp.log } := by
  have unprocessed : ((s.channel m).sightOf r x.outcome).unprocessed (s.channel m).lp.state := by
    rw [at_]
    cases left <;> exact unclear
  have handles : (s.channel m).lp.state.handles = true := by rw [at_]; cases left <;> rfl
  have filtered := filterAfter_of_left at_ unclear
  refine ⟨?_, State.heldOver_lp x.coord x.outcome handles filtered⟩
  rw [State.handleLine_of_unprocessed x recipe unprocessed, filtered,
    endOfLine_of_left (left := left) (by exact at_) x.outcome.lost, endUnlocked]
  refine congrArg _ (ite_congr (propext (linkDead_iff rfl)) (fun _ => rfl) fun _ => ?_)
  exact if_congr (by dsimp only; omega) rfl rfl

theorem State.handleLine_of_soft {left : LeftState} (at_ : (s.channel m).lp.state = .softLock left) :
    let lp := (s.channel m).lp
    let sight := (s.channel m).sightOf r x.outcome
    let held := s.heldOver m x.coord r x.outcome
    s.handleLine m x =
        held.finishLine m x.coord
          (if r.killsLink lp sight then .enterHard .link
          else if 3 ≤ lp.clearAfter sight then .leaveSoft left
          else if r.softLockMax < lp.softCount + 1 then .enterHard .obscured
          else .stay) ∧
      (held.channel m).lp =
        { lp with
          linkRun := lp.linkAfter sight
          softCount := lp.softCount + 1
          clearRun := lp.clearAfter sight
          log := enterCoverage x.coord (sight.coverage lp.state) lp.log } := by
  have unprocessed : ((s.channel m).sightOf r x.outcome).unprocessed (s.channel m).lp.state := by
    rw [at_]
    trivial
  have handles : (s.channel m).lp.state.handles = true := by rw [at_]; rfl
  have filtered := filterAfter_of_soft (r := r) (out := x.outcome) at_
  refine ⟨?_, State.heldOver_lp x.coord x.outcome handles filtered⟩
  rw [State.handleLine_of_unprocessed x recipe unprocessed, filtered, endOfLine]
  simp only [at_]
  exact congrArg _ (ite_congr (propext (linkDead_iff rfl)) (fun _ => rfl) fun _ => rfl)

theorem State.handleLine_of_hard {cause : HardCause} (at_ : (s.channel m).lp.state = .hardLock cause) :
    s.handleLine m x = s.heldOver m x.coord r x.outcome ∧
      ((s.heldOver m x.coord r x.outcome).channel m).lp =
        { (s.channel m).lp with log := enterCoverage x.coord .unavailable (s.channel m).lp.log } := by
  have unprocessed : ((s.channel m).sightOf r x.outcome).unprocessed (s.channel m).lp.state := by
    rw [at_]
    trivial
  have filtered := filterAfter_of_hard (c := s.channel m) at_ x.outcome.lost ((s.channel m).clearOn r x.outcome)
  refine ⟨?_, ?_⟩
  · rw [State.handleLine_of_unprocessed x recipe unprocessed, filtered, endOfLine, at_]
    rfl
  · rw [State.heldOver_lp x.coord x.outcome (by rw [at_]; rfl) filtered, Sight.coverage_of_hard at_]

theorem State.handleLine_obscuredCount (free : (s.channel m).hardLocked = false)
    (unprocessed : ((s.channel m).sightOf r x.outcome).unprocessed (s.channel m).lp.state) :
    (s.handleLine m x).channelCount m .obscuredLines =
      s.channelCount m .obscuredLines + if (s.channel m).sightOf r x.outcome = .obscured then 1 else 0 := by
  rw [State.handleLine_of_unprocessed x recipe unprocessed,
    State.finishLine_count (by decide) (by decide) (by decide), State.heldOver_count, if_pos rfl,
    Channel.sees_of_unlocked free]
  by_cases obscured : (s.channel m).sightOf r x.outcome = .obscured
  · rw [decide_eq_true obscured, if_pos obscured]
    rfl
  · rw [decide_eq_false obscured, if_neg obscured]
    rfl

/-- What a line without sight of the face does in WARMUP and ACTIVE (R78, R81). -/
theorem State.leftMoves {left : LeftState} (at_ : (s.channel m).lp.state = leftChannelState left)
    (unclear : (s.channel m).sightOf r x.outcome ≠ .clear) :
    let lp := (s.channel m).lp
    let sight := (s.channel m).sightOf r x.outcome
    let v := s.handleLine m x
    let lp' := (v.channel m).lp
    let held := HeldBy (s.strandOf m).cfg.countsPerLine x.coord r (s.channel m).tt (v.channel m).tt
    (r.killsLink lp sight → LocksHard m .link s v ∧ LockOffered m 0x00#8 0x01#8 0x01#8 x.coord s v) ∧
      (¬r.killsLink lp sight → lp.obscuredRun < 2 →
        lp' = { lp with linkRun := lp.linkAfter sight, obscuredRun := lp.obscuredRun + 1, log := lp'.log } ∧ held) ∧
      (¬r.killsLink lp sight → 2 ≤ lp.obscuredRun →
        lp' =
            { lp with
              state := .softLock left, linkRun := lp.linkAfter sight, obscuredRun := lp.obscuredRun + 1, clearRun := 0,
              softCount := 0, log := lp'.log } ∧
          held ∧ v.channelCount m .softEntries = s.channelCount m .softEntries + 1 ∧
          LockOffered m 0x00#8 0x00#8 0x00#8 x.coord s v) := by
  intro lp sight v lp' held
  obtain ⟨ends, entered⟩ := State.handleLine_of_left x recipe at_ unclear
  have heldBy := State.heldOver_heldBy (s := s) (m := m) (r := r) x.coord x.outcome
  refine ⟨fun dead => ?_, fun alive few => ?_, fun alive third => ?_⟩
  · rw [if_pos dead] at ends
    have locks := State.heldOver_enterHard (s := s) (m := m) (r := r) (line := x.coord) (out := x.outcome) (cause := .link) (code := 0x01#8) rfl x.coord
    rwa [← ends] at locks
  · rw [if_neg alive, if_neg (Nat.not_le.2 few), State.finishLine] at ends
    rw [← ends] at entered heldBy
    exact ⟨by rw [show lp' = _ from entered], heldBy⟩
  · rw [if_neg alive, if_pos third] at ends
    obtain ⟨soft, tt, count⟩ := State.finishLine_enterSoft (m := m) left x.coord (s.heldOver m x.coord r x.outcome)
    have offered := State.enterSoft_offered left x.coord (s.heldOver_hli m x.coord r x.outcome)
      (s.heldOver_cfg m x.coord r x.outcome)
    rw [← ends] at soft tt count offered
    rw [entered] at soft
    rw [← tt] at heldBy
    rw [State.heldOver_count, if_neg (by decide), add_zero] at count
    exact ⟨by rw [show lp' = _ from soft], heldBy, count, offered⟩

/-- What any line does in SOFT_LOCK (R79 to R81). -/
theorem State.softMoves {left : LeftState} (at_ : (s.channel m).lp.state = .softLock left) :
    let lp := (s.channel m).lp
    let sight := (s.channel m).sightOf r x.outcome
    let v := s.handleLine m x
    let lp' := (v.channel m).lp
    let held := HeldBy (s.strandOf m).cfg.countsPerLine x.coord r (s.channel m).tt (v.channel m).tt
    (r.killsLink lp sight → LocksHard m .link s v ∧ LockOffered m 0x00#8 0x01#8 0x01#8 x.coord s v) ∧
      (¬r.killsLink lp sight → 3 ≤ lp.clearAfter sight →
        lp' =
            { lp with
              state := leftChannelState left, linkRun := lp.linkAfter sight, obscuredRun := 0, clearRun := 0,
              softCount := 0, log := lp'.log } ∧
          held ∧ LockOffered m 0x01#8 0x00#8 0x04#8 x.coord s v) ∧
      (¬r.killsLink lp sight → lp.clearAfter sight < 3 → r.softLockMax < lp.softCount + 1 →
        LocksHard m .obscured s v ∧ LockOffered m 0x00#8 0x01#8 0x00#8 x.coord s v) ∧
      (¬r.killsLink lp sight → lp.clearAfter sight < 3 → lp.softCount + 1 ≤ r.softLockMax →
        lp' =
            { lp with
              linkRun := lp.linkAfter sight, clearRun := lp.clearAfter sight, softCount := lp.softCount + 1,
              log := lp'.log } ∧
          held) := by
  intro lp sight v lp' held
  obtain ⟨ends, entered⟩ := State.handleLine_of_soft x recipe at_
  have heldBy := State.heldOver_heldBy (s := s) (m := m) (r := r) x.coord x.outcome
  refine ⟨fun dead => ?_, fun alive clear => ?_, fun alive hidden long => ?_, fun alive hidden short => ?_⟩
  · rw [if_pos dead] at ends
    have locks := State.heldOver_enterHard (s := s) (m := m) (r := r) (line := x.coord) (out := x.outcome) (cause := .link) (code := 0x01#8) rfl x.coord
    rwa [← ends] at locks
  · rw [if_neg alive, if_pos clear] at ends
    obtain ⟨free, tt⟩ := State.finishLine_leaveSoft (m := m) left x.coord (s.heldOver m x.coord r x.outcome)
    have offered := State.leaveSoft_offered left x.coord (s.heldOver_hli m x.coord r x.outcome)
      (s.heldOver_cfg m x.coord r x.outcome)
    rw [← ends] at free tt offered
    rw [entered] at free
    rw [← tt] at heldBy
    exact ⟨by rw [show lp' = _ from free], heldBy, offered⟩
  · rw [if_neg alive, if_neg (Nat.not_le.2 hidden), if_pos long] at ends
    have locks := State.heldOver_enterHard (s := s) (m := m) (r := r) (line := x.coord) (out := x.outcome) (cause := .obscured) (code := 0x00#8) rfl x.coord
    rwa [← ends] at locks
  · rw [if_neg alive, if_neg (Nat.not_le.2 hidden), if_neg (Nat.not_lt.2 short), State.finishLine] at ends
    rw [← ends] at entered heldBy
    exact ⟨by rw [show lp' = _ from entered], heldBy⟩

/-- A line that is not processed moves the locks as R76 to R81, R84 and R85 say. -/
theorem State.handleLine_locksMove
    (unprocessed : ((s.channel m).sightOf r x.outcome).unprocessed (s.channel m).lp.state) :
    LocksMove m x.coord r ((s.channel m).sightOf r x.outcome)
      (fun left hard cause => LockOffered m left hard cause x.coord s (s.handleLine m x)) s (s.handleLine m x) := by
  have handles : (s.channel m).lp.state.handles = true := by
    cases st : (s.channel m).lp.state with
    | disabled | idle => rw [st] at unprocessed; exact unprocessed.elim
    | warmup | active | softLock left | hardLock cause => rfl
  have log := (s.handleLine_log m handles x recipe).trans (by rw [coverageClass_eq handles])
  refine ⟨log, fun free => ?_, fun left at_ => ?_, fun left at_ => State.softMoves x recipe at_, ?_⟩
  · exact State.handleLine_obscuredCount x recipe (Bool.eq_false_iff.2 (mt (s.channel m).hardLocked_iff.1 free)) unprocessed
  · have unclear : (s.channel m).sightOf r x.outcome ≠ .clear := by
      rw [at_] at unprocessed
      cases left <;> exact unprocessed
    exact State.leftMoves x recipe at_ unclear
  · rintro ⟨cause, at_⟩
    obtain ⟨ends, lp⟩ := State.handleLine_of_hard x recipe at_
    rw [ends]
    refine ⟨by rw [lp], State.heldOver_heldBy .., fun k own => ?_⟩
    have locked : (s.channel m).hardLocked = true := (s.channel m).hardLocked_iff.2 ⟨cause, at_⟩
    have unseen : (s.channel m).sees r x.outcome = false := by rw [Channel.sees, locked]; rfl
    rw [State.heldOver_count, unseen]
    split <;> exact BitVec.add_zero _

end

end Sys2Proof.Machine

/-! The commands that settle a line without processing it, and what they do to the locks (02, R25 to R33; 05, R76). -/

namespace Sys2Proof.Machine

/-! ### The obscured-line test (R76) -/

theorem seedingOver_eq (st : ChannelState) : seedingOver st = st.tracking := by
  cases st with
  | softLock left => cases left <;> rfl
  | disabled | idle | warmup | active | hardLock cause => rfl

theorem usable_eq (lp : LineProcessor) (samples : List Sample) (j : Nat) :
    (!usable (seedingOver lp.state) (columnAt lp.columns j) (sampleAt samples j)) = lp.unusable samples j := by
  simp only [usable, LineProcessor.unusable, seedingOver_eq, columnAt, sampleAt, bne, Bool.not_and, Bool.not_not, Bool.not_or,
    Bool.and_comm, Bool.or_comm, Bool.or_left_comm]

theorem inWindow_eq (r : Recipe) (groups : Nat) :
    inWindow r groups = fun j => decide (r.leftMargin ≤ j) && decide (j + r.rightMargin < 8 * groups) := rfl

/-- The model's test of a TAKEN line. -/
theorem takenObscured_eq (c : Channel) (r : Recipe) (samples : List Sample) :
    takenObscured r c.cfg.groups c.lp (.taken samples) = c.obscures r samples := by
  rw [takenObscured, lineObscured, unusableCount, windowColumns, inWindow_eq]
  simp only [usable_eq]
  rfl

theorem recipeAt_of_last {h : List HistoryEntry} {line : Nat} {e : HistoryEntry}
    (last : (h.filter fun g => g.coord ≤ line).getLast? = some e) : recipeAt h line = some e.recipe := by
  rw [recipeAt, entryAt, last]
  rfl

theorem LinkGrows.output_grows {s t : State} (grows : LinkGrows s t) : s.hli.output <+: t.hli.output := by
  obtain ⟨⟨notices, hli, -⟩, -⟩ := grows
  exact ⟨notices, by rw [hli]⟩

/-! ### The command, by what it shows -/

/-- The command settles the line out of a state that agrees with `s` but for channel m's receiver and its counters;
after the settlement the receiver may take another offset, and the link another notice. -/
structure SettlesLine (c : Instr) (m : ChannelId) (x : Settlement) (s u t : State) : Prop where
  next : exec c s = .next t
  received : OnlyReceived m s u
  counts : ∀ k, ofReceiver k = false → u.channelCount m k = s.channelCount m k
  after : SameLocks m (u.handleLine m x) t
  queue : (u.handleLine m x).hli.output <+: t.hli.output

section
variable {s v : State} {m : ChannelId} {c : Instr}

/-- A settlement that is the whole of a command's effect but for what the receiver counts first. -/
theorem SettlesLine.of_settle {last : Byte} {x : Settlement} (next : exec c s = .next (v.settle m last x))
    (received : OnlyReceived m s v) (same : SameLocks m s v) :
    SettlesLine c m x s (v.endAwait m (some last)) (v.settle m last x) where
  next := next
  received := received.trans (v.endAwait_received m _)
  counts k other := by rw [State.endAwait, State.channelCount_modRx, same.counts k other]
  after := .refl ..
  queue := List.prefix_rfl

theorem State.discard_settlesLine (cause : DiscardCause) {k coord : Nat} {expected : Byte}
    (awaiting : (s.channel m).rx.await = .awaiting k coord expected) (next : exec c s = .next ((s.hunt m).discard m cause)) :
    ∃ u t, SettlesLine c m ⟨k, coord, .discarded cause⟩ s u t := by
  rw [State.discard_hunt_of_awaiting cause awaiting] at next
  exact ⟨_, _, .of_settle next (s.setAside_received m _) (.setAside s m cause.counter_ofReceiver)⟩

theorem State.counted_sameLocks (s : State) (m : ChannelId) (f : ScanFrame) : SameLocks m s (s.counted m f) :=
  ((SameLocks.modRx ..).trans (.raiseChannel _ m rfl _)).trans (.raiseChannel _ m rfl _)

theorem exec_takeLine_settlesLine {f : ScanFrame} {k coord : Nat} (runs : s.Runs) (cast : s.InCast m)
    (completes : s.Completes m f) (accepts : s.Accepts m f)
    (awaiting : (s.channel m).rx.await = .awaiting k coord f.header.tag) :
    ∃ u t, SettlesLine (.scanFrame m f) m ⟨k, coord, .taken (frameSamples f)⟩ s u t :=
  ⟨_, _, .of_settle (exec_takeLine runs cast completes accepts awaiting) (s.counted_received m f) (s.counted_sameLocks m f)⟩

/-- A mismatch settles the line before the receiver takes the new offset and the link the notice (log 12). -/
theorem exec_tagMismatch_settlesLine {f : ScanFrame} {k coord : Nat} {expected : Byte} (runs : s.Runs) (cast : s.InCast m)
    (completes : s.Completes m f) (accepts : s.Accepts m f)
    (awaiting : (s.channel m).rx.await = .awaiting k coord expected) (other : f.header.tag ≠ expected)
    (early : f.header.tag ≠ expected - 1) :
    ∃ u t, SettlesLine (.scanFrame m f) m ⟨k, coord, .discarded .tagMismatch⟩ s u t := by
  refine ⟨(s.setAside m .tagMismatch).endAwait m (some f.header.tag), _,
    exec_tagMismatch runs cast completes accepts awaiting other early,
    (s.setAside_received m _).trans (State.endAwait_received _ m _), fun k other => ?_, ?_, ?_⟩
  · rw [State.endAwait, State.channelCount_modRx, (SameLocks.setAside s m (c := .tagMismatch) rfl).counts k other]
  · exact (SameLocks.modRx ..).trans (.offer ..)
  · exact (LineKept.modRx ..).grows.output_grows.trans (LinkGrows.offer ..).output_grows

end

/-- What the command shows is what the settled line shows. -/
theorem State.Shows.settlesLine {s : State} {m : ChannelId} {k coord : Nat} {expected : Byte} {r : Recipe} {c : Instr}
    {sight : Sight} (shows_ : s.Shows m k expected r c sight) (runs : s.Runs)
    (awaiting : (s.channel m).rx.await = .awaiting k coord expected) :
    ∃ x u t, SettlesLine c m x s u t ∧ x.coord = coord ∧ (s.channel m).sightOf r x.outcome = sight := by
  cases sight with
  | lost =>
    rcases shows_ with rfl | ⟨cast, fails | ⟨f, rfl, completes, own, good, faulty⟩⟩
    · have next : exec (.lineWaitExpiry m k) s = _ := exec_lineWaitExpiry_of_awaiting runs awaiting k
      rw [if_pos rfl, State.settleMissed_awaiting awaiting] at next
      exact ⟨⟨k, coord, .missed⟩, _, _, .of_settle next (.raiseChannel ..) (.raiseChannel s m rfl 1), rfl, rfl⟩
    · have next := exec_of_failsFraming runs fails
      rw [State.framingFailure_hunt_of_inCast cast] at next
      obtain ⟨u, t, settles⟩ := State.discard_settlesLine .frameError awaiting next
      exact ⟨_, u, t, settles, rfl, rfl⟩
    · by_cases groups : f.header.groups.toNat = (s.channel m).cfg.groups
      · obtain ⟨other, early⟩ := faulty.resolve_left (not_not.2 groups)
        obtain ⟨u, t, settles⟩ :=
          exec_tagMismatch_settlesLine runs cast completes ⟨own, good, groups⟩ awaiting other early
        exact ⟨_, u, t, settles, rfl, rfl⟩
      · have next := exec_scanFrame_of_completes runs completes
        rw [State.classify_hunt_of_format cast own good groups] at next
        obtain ⟨u, t, settles⟩ := State.discard_settlesLine .format awaiting next
        exact ⟨_, u, t, settles, rfl, rfl⟩
  | obscured =>
    obtain ⟨f, rfl, cast, completes, accepts, rfl, obscured⟩ := shows_
    obtain ⟨u, t, settles⟩ := exec_takeLine_settlesLine runs cast completes accepts awaiting
    refine ⟨_, u, t, settles, rfl, ?_⟩
    rw [Channel.sightOf, takenObscured_eq, obscured]
    rfl
  | clear =>
    obtain ⟨f, rfl, cast, completes, accepts, rfl, clear⟩ := shows_
    obtain ⟨u, t, settles⟩ := exec_takeLine_settlesLine runs cast completes accepts awaiting
    refine ⟨_, u, t, settles, rfl, ?_⟩
    rw [Channel.sightOf, takenObscured_eq, clear]
    rfl

/-- The locks of a channel whose awaited line a command settles without processing it. -/
theorem SettlesLine.locksMove {c : Instr} {s u t : State} {m : ChannelId} {x : Settlement} {r : Recipe}
    (settles : SettlesLine c m x s u t) (recipe : recipeAt (s.strandOf m).history x.coord = some r)
    (unprocessed : ((s.channel m).sightOf r x.outcome).unprocessed (s.channel m).lp.state) :
    LocksMove m x.coord r ((s.channel m).sightOf r x.outcome)
      (fun left hard cause => LockOffered m left hard cause x.coord s t) s t := by
  have received := settles.received
  have sight : (u.channel m).sightOf r x.outcome = (s.channel m).sightOf r x.outcome := by
    unfold Channel.sightOf
    rw [received.cfg, received.lp]
  rw [← received.strandOf] at recipe
  rw [← sight, ← received.lp] at unprocessed
  have moved := State.handleLine_locksMove x recipe unprocessed
  rw [sight] at moved
  refine SameLocks.locksMove (.of_received received settles.counts) settles.after moved fun left hard cause offered => ?_
  rw [LockOffered, State.offer_hli_congr received.hli, received.cfg] at offered
  exact offered.trans settles.queue

/-- The locks after a command that settles the awaited line without processing it. -/
theorem exec_locksMove {s : State} {m : ChannelId} {k coord : Nat} {expected : Byte} {e : HistoryEntry} {c : Instr}
    {sight : Sight} (awaiting : (s.channel m).rx.await = .awaiting k coord expected)
    (last : ((s.strandOf m).history.filter fun h => h.coord ≤ coord).getLast? = some e) (runs : s.Runs)
    (shows_ : s.Shows m k expected e.recipe c sight) (unprocessed : sight.unprocessed (s.channel m).lp.state) :
    ∃ t, exec c s = .next t ∧
      LocksMove m coord e.recipe sight (fun left hard cause => LockOffered m left hard cause coord s t) s t := by
  obtain ⟨x, u, t, settles, rfl, rfl⟩ := shows_.settlesLine runs awaiting
  exact ⟨t, settles.next, settles.locksMove (recipeAt_of_last last) unprocessed⟩

end Sys2Proof.Machine

/-! The line trigger as a command (01, R4, R8 to R10; 02, R30): the strand's own part, and the turn of one channel. -/

namespace Sys2Proof.Machine

section
variable {s : State} {n : StrandId} {input : EncInput}

/-! ### The strand at the line (R4, R8, R10, R64) -/

/-- The strand that a forward count has raised to the next trigger coordinate. -/
def Strand.atLine (x : Strand) (input : EncInput) : Strand :=
  Strand.raisedByOne { x with phase := pairAfter x.phase input }

/-- The state in which the line trigger of strand n begins. -/
def State.atLine (s : State) (n : StrandId) (input : EncInput) : State := s.putStrand n ((s.strand n).atLine input)

theorem State.atLine_strand : (s.atLine n input).strand n = (s.strand n).atLine input := State.strand_putStrand_self ..

theorem Strand.atLine_eq {x : Strand} (reached : x.travel + 1 = x.nextTrigger) :
    x.atLine input =
      { x with
        phase := pairAfter x.phase input, travel := x.nextTrigger, high := x.nextTrigger
        forecasts := (x.atLine input).forecasts } := by
  have raised : x.atLine input =
      { x with
        phase := pairAfter x.phase input, travel := x.travel + 1, high := x.travel + 1
        forecasts := (x.atLine input).forecasts } := rfl
  rw [reached] at raised
  exact raised

/-- The command is the trigger of the strand at the line. -/
theorem exec_encoderCount_of_triggers (triggers : s.Triggers n input) :
    exec (.encoderCount n input) s = .next ((s.atLine n input).lineTrigger n) := by
  obtain ⟨runs, casting, forward, top, reached, room⟩ := triggers
  have due : triggerDue ((s.strand n).atLine input) = true := by
    rw [triggerDue_iff, Strand.atLine_eq reached]
    exact ⟨rfl, room⟩
  have below : (s.strand n).travel < maxCoord := by omega
  rw [exec_encoderCount_forward runs casting forward, State.forwardCount_of_high] <;>
    rw [State.strand_putStrand_self]
  · rw [if_pos (show triggerDue (Strand.raisedByOne _) = true from due), State.putStrand_putStrand]
    rfl
  · exact top
  · exact below

theorem State.atLine_kept (s : State) (n : StrandId) (input : EncInput) : StrandKept n s (s.atLine n input) := .putStrand ..

theorem State.trigger_kept (s : State) (n : StrandId) (input : EncInput) :
    StrandKept n s ((s.atLine n input).lineTrigger n) :=
  (s.atLine_kept n input).trans (.lineTrigger ..)

/-- The records and flags of a line leave every counter of the strand but one. -/
theorem BilletSteps.count {x y : Strand} (steps : BilletSteps x y) (i : Fin 20) (other : i ≠ 13) :
    y.stats[i] = x.stats[i] := by
  induction steps with
  | refl => rfl
  | tail _ step ih =>
    rw [← ih]
    cases step with
    | record r room => rfl
    | flagged f g => rfl
    | dropped full => exact Vector.getElem_set_ne (by decide) _ fun same => other (Fin.ext same.symm)

/-- The strand after the trigger. -/
theorem State.trigger_strand (triggers : s.Triggers n input) :
    let x := s.strand n
    let t := (s.atLine n input).lineTrigger n
    x.TriggeredFrom (t.strand n) ∧
      (t.strand n).schedule = x.schedule.drop (dueAt x.nextTrigger x.schedule).length ∧
      (t.strand n).history = (dueAt x.nextTrigger x.schedule).foldl (s.historyWith x.nextTrigger) x.history := by
  intro x t
  obtain ⟨-, -, -, -, reached, -⟩ := triggers
  have steps := (s.atLine n input).lineTrigger_billetSteps n
  have triggered := (s.atLine n input).triggered_strand n
  have store : (s.atLine n input).historyWith = s.historyWith := State.historyWith_of_store s rfl
  rw [store, State.atLine_strand, Strand.atLine_eq reached] at triggered
  have frame := steps.frame
  have count := steps.count 0 (by decide)
  rw [triggered] at frame count
  have raised : (((s.atLine n input).raiseStrand n .triggers).strand n).stats[(0 : Fin 20)] = x.stats[(0 : Fin 20)] + 1 := by
    rw [State.raiseStrand_eq, State.strand_putStrand_self, State.strandCount, State.atLine_strand]
    exact Vector.getElem_set_self (by decide)
  have trigs : (t.strand n).stats[0] = x.stats[0] + 1 := count.trans raised
  refine ⟨⟨?_, ?_, ?_, ?_, ?_, ?_, ?_, ?_, ?_, trigs⟩, ?_, ?_⟩ <;>
    rw [show t.strand n = _ from frame]

/-! ### A channel restart (R51) -/

/-- The channel flushed and unseeded, before its window is looked at. -/
def State.restarted (s : State) (m : ChannelId) : State := (s.flush m).modLp m restartedLp

section
variable {m : ChannelId} {line : Nat} {left : LeftState}

theorem State.restartChannel_of_left (at_ : (s.channel m).lp.state = leftChannelState left) :
    s.restartChannel m line =
      if (s.restarted m).windowGone m then (s.restarted m).enterHardLock m .window line else s.restarted m := by
  unfold State.restartChannel
  cases left <;> (rw [at_]; rfl)

theorem State.restartChannel_of_soft (at_ : (s.channel m).lp.state = .softLock left) :
    s.restartChannel m line =
      if (s.restarted m).windowGone m then (s.restarted m).enterHardLock m .window line
      else (s.restarted m).lockNotice m true false .recipe line := by
  unfold State.restartChannel
  rw [at_]
  rfl

theorem State.restartChannel_of_held
    (held : (∃ cause, (s.channel m).lp.state = .hardLock cause) ∨ (s.channel m).lp.state.handles = false) :
    s.restartChannel m line = s := by
  unfold State.restartChannel
  cases st : (s.channel m).lp.state with
  | disabled | idle | hardLock cause => rfl
  | warmup | active | softLock left => simp [st, ChannelState.handles] at held

/-- A restart leaves the channel, flushes and unseeds it, or locks it; a lock left is notified. -/
theorem State.restartChannel_cases (s : State) (m : ChannelId) (line : Nat) :
    s.restartChannel m line = s ∨ s.restartChannel m line = s.restarted m ∨
      s.restartChannel m line = (s.restarted m).enterHardLock m .window line ∨
        s.restartChannel m line = (s.restarted m).lockNotice m true false .recipe line := by
  have split {u : State} (h : s.restartChannel m line =
      if (s.restarted m).windowGone m then (s.restarted m).enterHardLock m .window line else u) :
      s.restartChannel m line = (s.restarted m).enterHardLock m .window line ∨ s.restartChannel m line = u := by
    split at h
    · exact .inl h
    · exact .inr h
  cases st : (s.channel m).lp.state with
  | disabled | idle => exact .inl (State.restartChannel_of_held (.inr (by rw [st]; rfl)))
  | hardLock cause => exact .inl (State.restartChannel_of_held (.inl ⟨cause, st⟩))
  | warmup => exact (split (State.restartChannel_of_left (left := .warmup) st)).elim (.inr ∘ .inr ∘ .inl) (.inr ∘ .inl)
  | active => exact (split (State.restartChannel_of_left (left := .active) st)).elim (.inr ∘ .inr ∘ .inl) (.inr ∘ .inl)
  | softLock left => exact (split (State.restartChannel_of_soft st)).elim (.inr ∘ .inr ∘ .inl) (.inr ∘ .inr ∘ .inr)

theorem State.restarted_channel (s : State) (m : ChannelId) :
    (s.restarted m).channel m =
      { s.channel m with
        lp := restartedLp (s.channel m).lp, tt := freeTable (s.channel m).tt
        stats := ((s.restarted m).channel m).stats } := by
  rw [State.restarted, State.modLp_eq, State.channel_putChannel_self, State.flush_channel]

theorem State.restarted_count (s : State) (m : ChannelId) {k : ChannelCounter}
    (other : k ≠ .recordsEmitted ∧ k ≠ .tooShort) : (s.restarted m).channelCount m k = s.channelCount m k := by
  rw [State.restarted, State.channelCount_modLp, State.channelCount_flush, emissionCount_of_other other, add_zero]

theorem State.restartChannel_rx (s : State) (m : ChannelId) (line : Nat) :
    ((s.restartChannel m line).channel m).rx = (s.channel m).rx := by
  rcases s.restartChannel_cases m line with same | same | same | same <;> rw [same]
  · rw [State.restarted_channel]
  · rw [State.enterHardLock_channel, State.restarted_channel]
  · rw [channel_eq_of_channels (State.lockNotice_channels ..), State.restarted_channel]

theorem State.receiverCount_restartChannel (s : State) (m : ChannelId) (line : Nat) {k : ChannelCounter}
    (own : ofReceiver k = true) : (s.restartChannel m line).channelCount m k = s.channelCount m k := by
  obtain ⟨emission, -⟩ := ofReceiver_other own
  rcases s.restartChannel_cases m line with same | same | same | same <;> rw [same]
  · exact s.restarted_count m emission
  · rw [State.receiverCount_enterHardLock _ m own, s.restarted_count m emission]
  · rw [State.channelCount_of_channels (State.lockNotice_channels ..), s.restarted_count m emission]

end

/-! ### The turn of one channel (R30, R54) -/

/-- The last expected tag that a new await finds: that of the line still awaited (R32), or the one that stood. -/
def Receiver.leftTag (rx : Receiver) : Option Byte :=
  match rx.await with
  | .quiet => rx.lastExpected
  | .awaiting _ _ expected => some expected

/-- What a still awaited line adds to the counter of missed lines (R30). -/
def Receiver.missedOnes (rx : Receiver) : Counter :=
  match rx.await with
  | .quiet => 0
  | .awaiting _ _ _ => 1

/-- The receiver with the await of line k open at L (R30). -/
def Receiver.opened (rx : Receiver) (k line wait : Nat) : Receiver :=
  { rx with
    await := .awaiting k line (BitVec.ofNat 8 k + rx.tagOffset), lastExpected := rx.leftTag, timer := some wait }

section
variable (s : State) (m : ChannelId)

theorem State.settleMissed_of_quiet (quiet : (s.channel m).rx.await = .quiet) : s.settleMissed m = s := by
  rw [State.settleMissed]
  simp only [quiet]

theorem State.settleMissed_rx :
    ((s.settleMissed m).channel m).rx =
      { (s.channel m).rx with
        await := .quiet, lastExpected := (s.channel m).rx.leftTag, timer := ((s.settleMissed m).channel m).rx.timer } := by
  cases await : (s.channel m).rx.await with
  | quiet =>
    rw [s.settleMissed_of_quiet m await, Receiver.leftTag]
    simp only [await]
    rw [← await]
  | awaiting k line expected =>
    rw [State.settleMissed_awaiting await, State.settle_rx, State.raiseChannel_rx, Receiver.leftTag]
    simp only [await]

theorem State.settleMissed_missed :
    (s.settleMissed m).channelCount m .missed = s.channelCount m .missed + (s.channel m).rx.missedOnes := by
  rw [Receiver.missedOnes]
  cases await : (s.channel m).rx.await with
  | quiet =>
    rw [s.settleMissed_of_quiet m await]
    exact (BitVec.add_zero _).symm
  | awaiting k line expected =>
    rw [State.settleMissed_awaiting await, State.receiverCount_settle _ m (k := .missed) rfl, State.channelCount_raiseChannel,
      if_pos rfl]
    rfl

/-- Before the await of the new line opens: the line still awaited missed, and the channel restarted if need be. -/
def State.cleared (s : State) (m : ChannelId) (line : Nat) (restart : Bool) : State :=
  if restart then (s.settleMissed m).restartChannel m line else s.settleMissed m

theorem State.takeTrigger_eq (k line : Nat) (restart : Bool) :
    State.takeTrigger k line restart m s = (s.cleared m line restart).beginAwait m k line := rfl

theorem State.cleared_rx (line : Nat) (restart : Bool) :
    ((s.cleared m line restart).channel m).rx = ((s.settleMissed m).channel m).rx := by
  unfold State.cleared
  split
  · exact State.restartChannel_rx ..
  · rfl

theorem State.cleared_strandCfg (line : Nat) (restart : Bool) :
    ((s.cleared m line restart).strandOf m).cfg = (s.strandOf m).cfg := by
  have kept : LineKept m s (s.cleared m line restart) := by
    unfold State.cleared
    split
    · exact (LineKept.settleMissed m s).trans (.restartChannel ..)
    · exact .settleMissed m s
  rw [State.strandOf, kept.cfg_eq m, kept.strand_eq]
  rfl

theorem State.takeTrigger_rx (k line : Nat) (restart : Bool) :
    ((State.takeTrigger k line restart m s).channel m).rx =
      (s.channel m).rx.opened k line (s.strandOf m).cfg.lineWaitUs := by
  rw [State.takeTrigger_eq, State.beginAwait, State.modRx_eq, State.channel_putChannel_self, State.cleared_rx,
    State.cleared_strandCfg, State.settleMissed_rx]
  rfl

theorem State.takeTrigger_missed (k line : Nat) (restart : Bool) :
    (State.takeTrigger k line restart m s).channelCount m .missed =
      s.channelCount m .missed + (s.channel m).rx.missedOnes := by
  rw [State.takeTrigger_eq, State.beginAwait, State.channelCount_modRx, State.cleared, ← State.settleMissed_missed]
  split
  · exact State.receiverCount_restartChannel _ m line rfl
  · rfl

end

/-! ### The turn within the trigger (R8, R30) -/

/-- Whether the trigger restarts the channels (R160). -/
def State.restarts (s : State) (n : StrandId) (input : EncInput) : Bool := (s.atLine n input).restartsAtTrigger n

/-- The turn of channel m in the trigger of strand n, out of the state `u`. -/
def State.turnFrom (s : State) (n : StrandId) (input : EncInput) (m : ChannelId) (u : State) : State :=
  State.takeTrigger ((s.strand n).nextTrigger / (s.strand n).cfg.countsPerLine) (s.strand n).nextTrigger
    (s.restarts n input) m u

section
variable (triggers : s.Triggers n input) {m : ChannelId} (on : (s.channel m).cfg.enabled = true)
  (own : (s.channel m).cfg.strand = n)
include triggers on own

theorem State.trigger_turn :
    ∃ u, Aside m ((s.atLine n input).triggered n) u ∧
      Aside m (s.turnFrom n input m u) ((s.atLine n input).lineTrigger n) := by
  obtain ⟨-, -, -, -, reached, -⟩ := triggers
  have kept : StrandKept n s ((s.atLine n input).triggered n) := (s.atLine_kept n input).trans (State.triggered_kept ..)
  have mem : m ∈ ((s.atLine n input).triggered n).channelsOf n := by
    rw [kept.mem_channelsOf, State.mem_channelsOf]
    exact ⟨on, own⟩
  have turn := State.eachChannel_turn mem fun u j =>
    LineKept.takeTrigger j u (((s.atLine n input).strand n).nextTrigger / ((s.atLine n input).strand n).cfg.countsPerLine)
      ((s.atLine n input).strand n).nextTrigger ((s.atLine n input).restartsAtTrigger n)
  rw [← State.lineTrigger_eq, State.atLine_strand, Strand.atLine_eq reached] at turn
  exact turn

omit triggers on in
/-- Where the channel's turn begins, the channel and its strand's configuration are those of before the command. -/
theorem State.turn_channel {u : State} (aside : Aside m ((s.atLine n input).triggered n) u) :
    u.channel m = s.channel m ∧ (u.strandOf m).cfg = (s.strand n).cfg := by
  have channel : u.channel m = s.channel m := by
    rw [aside.channel, channel_eq_of_channels (State.triggered_channels ..)]
    rfl
  refine ⟨channel, ?_⟩
  rw [State.strandOf, channel, own, aside.strand, State.triggered_strand, State.atLine_strand]
  rfl

theorem State.trigger_rx :
    (((s.atLine n input).lineTrigger n).channel m).rx =
        (s.channel m).rx.opened ((s.strand n).nextTrigger / (s.strand n).cfg.countsPerLine) (s.strand n).nextTrigger
          (s.strand n).cfg.lineWaitUs ∧
      ((s.atLine n input).lineTrigger n).channelCount m .missed =
        s.channelCount m .missed + (s.channel m).rx.missedOnes := by
  obtain ⟨u, before, after⟩ := State.trigger_turn triggers on own
  obtain ⟨channel, cfg⟩ := State.turn_channel own before
  have count : u.channelCount m .missed = s.channelCount m .missed := by rw [State.channelCount, channel]; rfl
  have last : ((s.atLine n input).lineTrigger n).channelCount m .missed = (s.turnFrom n input m u).channelCount m .missed := by
    rw [State.channelCount, after.channel]
    rfl
  rw [last, after.channel, State.turnFrom, State.takeTrigger_rx, State.takeTrigger_missed, channel, cfg, count]
  exact ⟨rfl, rfl⟩

end

theorem State.trigger_reopened (triggers : s.Triggers n input) : Reopened n s ((s.atLine n input).lineTrigger n) := by
  intro m on own
  obtain ⟨rx, missed⟩ := State.trigger_rx triggers on own
  refine ⟨fun quiet => ?_, fun k line expected awaiting => ?_⟩
  · rw [rx, missed, Receiver.opened, Receiver.leftTag, Receiver.missedOnes, quiet]
    exact ⟨rfl, BitVec.add_zero _⟩
  · rw [rx, missed, Receiver.opened, Receiver.leftTag, Receiver.missedOnes, awaiting]
    exact ⟨rfl, rfl⟩

/-! ### With no schedule entry due -/

theorem recipeChange_self (r : Option Recipe) : recipeChange r r = false := by
  cases r with
  | none => rfl
  | some r => simp [recipeChange, restartsChannels]

theorem dueAt_of_none {line : Nat} {schedule : List ScheduleEntry}
    (none : ∀ e, schedule.head? = some e → line < e.coord) : dueAt line schedule = [] := by
  cases schedule with
  | nil => rfl
  | cons e rest => exact List.takeWhile_cons_of_neg (by simpa using none e rfl)

/-- Whether the trigger restarts the channels, by the histories before and after it. -/
theorem State.restarts_eq (triggers : s.Triggers n input) :
    s.restarts n input =
      recipeChange (newestRecipe (s.strand n).history)
        (newestRecipe ((dueAt (s.strand n).nextTrigger (s.strand n).schedule).foldl
          (s.historyWith (s.strand n).nextTrigger) (s.strand n).history)) := by
  obtain ⟨-, -, -, -, reached, -⟩ := triggers
  have store : (s.atLine n input).historyWith = s.historyWith := State.historyWith_of_store s rfl
  rw [State.restarts, State.restartsAtTrigger, State.triggered_strand, State.atLine_strand, store, Strand.atLine_eq reached]

/-- Settles O27: the strand's own part, and in each channel's turn no restart. -/
theorem lineTriggerOpensTheAwaits : Obligations.LineTriggerOpensTheAwaits := by
  intro s n input triggers x none
  obtain ⟨from_, schedule, history⟩ := State.trigger_strand triggers
  have nothing := dueAt_of_none none
  rw [show dueAt (s.strand n).nextTrigger (s.strand n).schedule = [] from nothing] at schedule history
  have calm : s.restarts n input = false := by
    rw [State.restarts_eq triggers, show dueAt (s.strand n).nextTrigger (s.strand n).schedule = [] from nothing]
    exact recipeChange_self _
  refine ⟨_, exec_encoderCount_of_triggers triggers, from_, schedule, history, (s.trigger_kept n input).1,
    fun m on own => ⟨fun quiet => ?_, fun k line expected awaiting => ?_⟩⟩
  · obtain ⟨u, before, after⟩ := State.trigger_turn triggers on own
    obtain ⟨channel, cfg⟩ := State.turn_channel own before
    have quiet' : (u.channel m).rx.await = .quiet := channel ▸ quiet
    rw [after.channel, State.turnFrom, calm, State.takeTrigger_eq, State.cleared, if_neg Bool.false_ne_true,
      u.settleMissed_of_quiet m quiet', State.beginAwait, State.modRx_eq, State.channel_putChannel_self, channel, cfg]
  · exact (State.trigger_reopened triggers m on own).2 k line expected awaiting

end

end Sys2Proof.Machine

/-! A line still awaited at the next trigger (02, R30; 05, R77 to R81): its part of the locks, among the other channels'. -/

namespace Sys2Proof.Machine

/-! ### What the lost lines of other channels do to the billet -/

section
variable (s : State) (m : ChannelId) (n : StrandId) (f : Face)

/-- Between two states the billet of strand n keeps number and head, and HARD_LOCKED alone may have been set. -/
def FacesStay (n : StrandId) (s t : State) : Prop := ∀ f, FaceGoes f StaysOrLocks (s.strand n).billet (t.strand n).billet

theorem FacesStay.refl : FacesStay n s s := fun f => .refl f (fun _ => .inl rfl) _

theorem FacesStay.trans {n : StrandId} {s t u : State} (a : FacesStay n s t) (b : FacesStay n t u) : FacesStay n s u :=
  fun f => (a f).trans (b f) StaysOrLocks.trans

theorem FacesStay.of_strands {n : StrandId} {s t : State} (same : t.strands = s.strands) : FacesStay n s t := fun f => by
  rw [strand_eq_of_strands same]
  exact .refl f (fun _ => .inl rfl) _

theorem modFace_staysOrLocks (f g : Face) (b : OpenBillet) :
    StaysOrLocks b.faces[faceIndex g] (modFace f (fun h => { h with hardLocked := true }) b).faces[faceIndex g] := by
  by_cases same : faceIndex f = faceIndex g
  · refine .inr ?_
    simp only [modFace, same]
    exact Vector.getElem_set_self (Fin.isLt _)
  · refine .inl (Vector.getElem_set_ne (Fin.isLt _) (Fin.isLt _) fun index => same (Fin.ext index))

theorem State.hardened_facesStay (cause : HardCause) : FacesStay n s (s.hardened m cause) := by
  by_cases own : n = (s.channel m).cfg.strand
  · have billet := s.hardened_billet m cause
    rw [State.strandOf, State.hardened_cfg, State.flush_billet] at billet
    rw [own]
    intro g b opened
    rw [billet, State.strandOf, opened]
    exact ⟨_, rfl, rfl, rfl, modFace_staysOrLocks _ g _⟩
  · have kept : LineKept m s (s.hardened m cause) :=
      (((LineKept.flush m s).trans (.modLp ..)).trans (.raiseChannel ..)).trans (.reportFace ..)
    obtain ⟨-, -, others, -⟩ := kept
    intro g
    rw [others n own]
    exact .refl g (fun _ => .inl rfl) _

theorem State.finishLine_facesStay (line : Nat) (e : EndOfLine) : FacesStay n s (s.finishLine m line e) := by
  cases e with
  | stay => exact .refl s n
  | enterSoft left => exact .of_strands (State.offer_strands ..)
  | leaveSoft left => exact .of_strands (State.offer_strands ..)
  | enterHard cause =>
    rw [State.finishLine, State.enterHardLock_eq]
    exact (s.hardened_facesStay m n cause).trans (.of_strands (State.offer_strands ..))

/-- A lost line is not processed: it can only lock. -/
theorem State.handleLine_lost_facesStay {x : Settlement} (lost : x.outcome.lost = true) :
    FacesStay n s (s.handleLine m x) := by
  cases handles : (s.channel m).lp.state.handles with
  | false =>
    rw [State.handleLine_of_not_handles handles]
    exact .refl s n
  | true =>
    cases recipe : recipeAt (s.strandOf m).history x.coord with
    | none =>
      rw [State.handleLine_of_no_recipe x recipe]
      exact .refl s n
    | some r =>
      have held : (s.channel m).lp.state.processes ((s.channel m).clearOn r x.outcome) = false := by
        rw [Channel.clearOn, lost]
        cases (s.channel m).lp.state <;> rfl
      rw [State.handleLine_of_held handles x recipe held]
      exact (FacesStay.of_strands (s.heldOver_strands m x.coord r x.outcome)).trans
        (State.finishLine_facesStay (s.heldOver m x.coord r x.outcome) m n x.coord _)

theorem State.settleMissed_facesStay : FacesStay n s (s.settleMissed m) := by
  cases await : (s.channel m).rx.await with
  | quiet =>
    rw [s.settleMissed_of_quiet m await]
    exact .refl s n
  | awaiting k line expected =>
    rw [State.settleMissed_awaiting await, State.settle]
    exact (FacesStay.of_strands (t := (s.raiseChannel m .missed).endAwait m (some expected)) rfl).trans
      (State.handleLine_lost_facesStay _ m n rfl)

theorem State.takeTrigger_facesStay (k line : Nat) : FacesStay n s (State.takeTrigger k line false m s) :=
  (s.settleMissed_facesStay m n).trans (.of_strands (t := (s.settleMissed m).beginAwait m k line) rfl)

end

/-! ### One channel's turn, with what the others do to the billet -/

/-- Of an event handed to several channels, each its own turn, and a relation that each turn keeps. -/
theorem foldl_turn_with {R : State → State → Prop} (refl : ∀ u, R u u) (trans : ∀ {u v w}, R u v → R v w → R u w)
    {m : ChannelId} {f : State → ChannelId → State} {ms : List ChannelId} (nodup : ms.Nodup) (mem : m ∈ ms)
    (kept : ∀ u j, LineKept j u (f u j)) (keeps : ∀ u j, R u (f u j)) (s : State) :
    ∃ u, (Aside m s u ∧ R s u) ∧ Aside m (f u m) (ms.foldl f s) ∧ R (f u m) (ms.foldl f s) := by
  obtain ⟨before, after, rfl⟩ := List.append_of_mem mem
  rw [List.nodup_append] at nodup
  obtain ⟨-, behind, apart⟩ := nodup
  have turns (ms : List ChannelId) (u : State) : R u (ms.foldl f u) :=
    foldl_keeps (P := R u) ms u (refl u) fun v j _ h => trans h (keeps v j)
  refine ⟨before.foldl f s, ⟨.foldl before s kept fun own => apart m own m List.mem_cons_self rfl, turns before s⟩, ?_⟩
  rw [List.foldl_append, List.foldl_cons]
  exact ⟨.foldl after _ kept (List.nodup_cons.1 behind).1, turns after _⟩

theorem State.eachChannel_turn_with {R : State → State → Prop} (refl : ∀ u, R u u) (trans : ∀ {u v w}, R u v → R v w → R u w)
    {m : ChannelId} {n : StrandId} {f : ChannelId → State → State} {s : State} (drawn : R s s.drawn)
    (mem : m ∈ s.channelsOf n) (kept : ∀ u j, LineKept j u (f j u)) (keeps : ∀ u j, R u (f j u)) :
    ∃ u, (Aside m s u ∧ R s u) ∧ Aside m (f m u) (s.eachChannel n f) ∧ R (f m u) (s.eachChannel n f) := by
  obtain ⟨u, ⟨before, first⟩, after⟩ := foldl_turn_with refl trans (f := fun u j => f j u) (s.openOrder_nodup n)
    ((s.openOrder_perm n).mem_iff.2 mem) (fun u j => kept u j) (fun u j => keeps u j) s.drawn
  exact ⟨u, ⟨(Aside.drawn m s _).trans before, trans drawn first⟩, after⟩

/-! ### The queue behind a notice that stands first -/

/-- Where a notice stands first behind the queue of `s`, the rest of what the link took stands behind it. -/
theorem LinkGrows.after_offer {s t : State} (grows : LinkGrows s t) {k : NoticeKind} {body : List Byte}
    (first : (s.offer k body).hli.output <+: t.hli.output) : LinkGrows (s.offer k body) t := by
  obtain ⟨⟨taken, hli, room, own⟩, counts⟩ := grows
  obtain ⟨⟨offered, hliOffer, -⟩, countsOffer⟩ := LinkGrows.offer s k body
  obtain ⟨rest, whole⟩ := first
  rw [hli, hliOffer, List.append_assoc] at whole
  obtain rfl := List.append_cancel_left whole
  refine ⟨⟨rest, by rw [hli, hliOffer, List.append_assoc], ?_, fun g mem => ?_⟩, fun i h3 h4 => ?_⟩
  · rw [hliOffer, List.append_assoc]
    rcases room with nothing | room
    · exact .inl (List.append_eq_nil_iff.1 nothing).2
    · exact .inr room
  · rw [hliOffer]
    exact own g (List.mem_append_right _ mem)
  · rw [counts i h3 h4, countsOffer i h3 h4]

/-! ### The turn of a channel where no schedule entry is due -/

theorem SameLocks.of_aside {m : ChannelId} {s t : State} (aside : Aside m s t)
    (faces : FacesStay (s.channel m).cfg.strand s t) : SameLocks m s t where
  lp := by rw [aside.channel]
  tt := by rw [aside.channel]
  cfg := by rw [aside.channel]
  strandCfg := by rw [State.strandOf, aside.channel, aside.strand]; rfl
  counts k _ := by rw [State.channelCount, aside.channel]; rfl
  billet f := by
    have goes := faces f
    rw [State.strandOf, State.strandOf, aside.channel]
    exact goes

theorem SameLocks.beginAwait (s : State) (m : ChannelId) (k line : Nat) : SameLocks m s (s.beginAwait m k line) := by
  rw [State.beginAwait]
  exact .modRx ..

theorem LinkGrows.beginAwait (s : State) (m : ChannelId) (k line : Nat) : LinkGrows s (s.beginAwait m k line) :=
  .of_eq rfl rfl

/-- The strand as the trigger hands it to the channels. -/
theorem State.triggered_atLine {s : State} {n : StrandId} {input : EncInput} (triggers : s.Triggers n input) :
    let x := s.strand n
    let y := ((s.atLine n input).triggered n).strand n
    y.cfg = x.cfg ∧ y.billet = x.billet ∧
      y.history = (dueAt x.nextTrigger x.schedule).foldl (s.historyWith x.nextTrigger) x.history := by
  intro x y
  obtain ⟨-, -, -, -, reached, -⟩ := triggers
  have strand := (s.atLine n input).triggered_strand n
  have store : (s.atLine n input).historyWith = s.historyWith := State.historyWith_of_store s rfl
  rw [State.atLine_strand, store, Strand.atLine_eq reached] at strand
  rw [show y = _ from strand]
  exact ⟨rfl, rfl, rfl⟩

section
variable {s : State} {n : StrandId} {input : EncInput} (triggers : s.Triggers n input)
  (none : ∀ e, (s.strand n).schedule.head? = some e → (s.strand n).nextTrigger < e.coord)
include triggers none

theorem State.restarts_of_none : s.restarts n input = false := by
  rw [State.restarts_eq triggers, dueAt_of_none none]
  exact recipeChange_self _

variable {m : ChannelId} (on : (s.channel m).cfg.enabled = true) (own : (s.channel m).cfg.strand = n)
include on own

omit on in
theorem State.triggered_sameLocks :
    SameLocks m s ((s.atLine n input).triggered n) ∧
      (((s.atLine n input).triggered n).strandOf m).history = (s.strandOf m).history := by
  have channel : ((s.atLine n input).triggered n).channel m = s.channel m := by
    rw [channel_eq_of_channels (State.triggered_channels ..)]
    rfl
  obtain ⟨cfg, billet, history⟩ := State.triggered_atLine triggers
  rw [dueAt_of_none none] at history
  have mine : ((s.atLine n input).triggered n).strandOf m = ((s.atLine n input).triggered n).strand n := by
    rw [State.strandOf, channel, own]
  have before : s.strandOf m = s.strand n := by rw [State.strandOf, own]
  refine ⟨⟨by rw [channel], by rw [channel], by rw [channel], by rw [mine, before, cfg], fun k _ => ?_, fun f => ?_⟩,
    by rw [mine, before, history]; rfl⟩
  · rw [State.channelCount, channel]
    rfl
  · rw [mine, before, billet]
    exact .refl f (fun _ => .inl rfl) _

/-- Where no entry is due, the turns before and behind that of channel m leave its locks alone. -/
theorem State.calmTurn :
    ∃ u, u.channel m = s.channel m ∧ SameLocks m s u ∧ (u.strandOf m).history = (s.strandOf m).history ∧ LinkGrows s u ∧
      SameLocks m (s.turnFrom n input m u) ((s.atLine n input).lineTrigger n) ∧
        LinkGrows (s.turnFrom n input m u) ((s.atLine n input).lineTrigger n) := by
  obtain ⟨same, history⟩ := State.triggered_sameLocks triggers none own
  have kept : StrandKept n s ((s.atLine n input).triggered n) := (s.atLine_kept n input).trans (State.triggered_kept ..)
  have mem : m ∈ ((s.atLine n input).triggered n).channelsOf n := by
    rw [kept.mem_channelsOf, State.mem_channelsOf]
    exact ⟨on, own⟩
  have calm : (s.atLine n input).restartsAtTrigger n = false := State.restarts_of_none triggers none
  have turn := State.eachChannel_turn_with (R := FacesStay n) (fun u => .refl u n) FacesStay.trans (.of_strands rfl) mem
    (fun u j => LineKept.takeTrigger j u (((s.atLine n input).strand n).nextTrigger / ((s.atLine n input).strand n).cfg.countsPerLine)
      ((s.atLine n input).strand n).nextTrigger false)
    (fun u j => u.takeTrigger_facesStay j n _ _)
  rw [← calm, ← State.lineTrigger_eq] at turn
  obtain ⟨-, -, -, -, reached, -⟩ := triggers
  rw [State.atLine_strand, Strand.atLine_eq reached] at turn
  obtain ⟨u, ⟨before, first⟩, after, last⟩ := turn
  have channel := before.channel
  have mine : u.strandOf m = u.strand n := by rw [State.strandOf, channel, same.cfg, own]
  refine ⟨u, ?_, same.trans (.of_aside before ?_), ?_, kept.grows.trans before.grows, .of_aside after ?_, after.grows⟩
  · rw [channel, channel_eq_of_channels (State.triggered_channels ..)]
    rfl
  · rwa [same.cfg, own]
  · rw [mine, before.strand, ← history, State.strandOf, same.cfg, own]
  · have cfg := (LineKept.takeTrigger m u ((s.strand n).nextTrigger / (s.strand n).cfg.countsPerLine)
      (s.strand n).nextTrigger (s.restarts n input)).cfg_eq m
    have strand : ((s.turnFrom n input m u).channel m).cfg.strand = n := by
      rw [State.turnFrom, cfg, channel, same.cfg, own]
    rw [strand]
    exact last

/-- A line still awaited at a trigger with no entry due, as the turn of its channel settles it. -/
theorem State.calmTurn_locksMove {k coord : Nat} {expected : Byte} {e : HistoryEntry}
    (awaiting : (s.channel m).rx.await = .awaiting k coord expected)
    (last : ((s.strandOf m).history.filter fun h => h.coord ≤ coord).getLast? = some e)
    (unprocessed : Sight.unprocessed .lost (s.channel m).lp.state) :
    LocksMove m coord e.recipe .lost
      (fun left hard cause => OfferedAmong .channelLock (lockBody m n left hard cause coord) s
        ((s.atLine n input).lineTrigger n)) s ((s.atLine n input).lineTrigger n) := by
  obtain ⟨u, channel, before, history, grown, after, grows⟩ := State.calmTurn triggers none on own
  have received : OnlyReceived m u ((u.raiseChannel m .missed).endAwait m (some expected)) :=
    (OnlyReceived.raiseChannel ..).trans (State.endAwait_received ..)
  have entering : SameLocks m u ((u.raiseChannel m .missed).endAwait m (some expected)) :=
    (SameLocks.raiseChannel u m rfl 1).trans (.modRx ..)
  have turn : s.turnFrom n input m u =
      (((u.raiseChannel m .missed).endAwait m (some expected)).handleLine m ⟨k, coord, .missed⟩).beginAwait m
        ((s.strand n).nextTrigger / (s.strand n).cfg.countsPerLine) (s.strand n).nextTrigger := by
    rw [State.turnFrom, State.restarts_of_none triggers none, State.takeTrigger_eq, State.cleared,
      if_neg Bool.false_ne_true, State.settleMissed_awaiting (by rw [channel]; exact awaiting)]
    rfl
  rw [turn] at after grows
  generalize (u.raiseChannel m .missed).endAwait m (some expected) = v at received entering after grows
  have recipe : recipeAt (v.strandOf m).history coord = some e.recipe := by
    rw [received.strandOf, history, recipeAt_of_last last]
  have moved := State.handleLine_locksMove ⟨k, coord, .missed⟩ recipe
    (by rw [received.lp, channel]; exact unprocessed)
  refine SameLocks.locksMove (before.trans entering) ((SameLocks.beginAwait ..).trans after) moved
    fun left hard cause offered => ⟨v, grown.trans received.kept.grows, ?_⟩
  have handled := LineKept.handleLine m v ⟨k, coord, .missed⟩
  rw [LockOffered, received.cfg, channel, own] at offered
  exact (handled.grows.after_offer offered).trans ((LinkGrows.beginAwait ..).trans grows)

end

/-- Settles O55: by what the command shows, and at the next trigger by the turn of the channel. -/
theorem lostLinesLockTheChannel : Obligations.LostLinesLockTheChannel := by
  intro s m k coord expected e awaiting last
  refine ⟨fun c sight runs shows_ unprocessed => exec_locksMove awaiting last runs shows_ unprocessed,
    fun n input triggers on own none unprocessed => ?_⟩
  exact ⟨_, exec_encoderCount_of_triggers triggers, State.calmTurn_locksMove triggers none on own awaiting last unprocessed⟩

end Sys2Proof.Machine

/-! A HEAD_FAULT frame (02, R26; 05, R82, R84, R85): the awaited line discarded, and the channel locked hard. -/

namespace Sys2Proof.Machine

/-! ### The head fault (R82) -/

/-- The channel is in WARMUP, ACTIVE or SOFT_LOCK. -/
def ChannelState.Unlocked (st : ChannelState) : Prop := st = .warmup ∨ st = .active ∨ ∃ left, st = .softLock left

theorem ChannelState.Unlocked.handles {st : ChannelState} (unlocked : st.Unlocked) : st.handles = true := by
  rcases unlocked with rfl | rfl | ⟨left, rfl⟩ <;> rfl

section
variable {s u w : State} {m : ChannelId}

theorem State.headFault_of_unlocked (unlocked : (s.channel m).lp.state.Unlocked) (coord : Nat) :
    s.headFault m coord = s.enterHardLock m .head coord := by
  unfold State.headFault
  rcases unlocked with st | st | ⟨left, st⟩ <;> rw [st]

theorem State.headFault_of_locked {cause : HardCause} (locked : (s.channel m).lp.state = .hardLock cause) (coord : Nat) :
    s.headFault m coord = s := by
  rw [State.headFault, locked]

/-- R25 check 3: a HEAD_FAULT frame discards the awaited line, and locks. -/
theorem State.classify_hunt_of_headFault {f : ScanFrame} (cast : s.InCast m)
    (own : f.header.headId = (s.channel m).cfg.headId) (fault : f.header.status.getLsbD 0 = true) :
    (s.hunt m).classify m f = ((s.hunt m).discard m .headFault).headFault m ((s.hunt m).faultCoord m) := by
  simp only [State.classify, State.inCast_hunt, (s.inCast_iff m).2 cast, State.channel_hunt, Bool.not_true,
    Bool.false_eq_true, if_false, own, fault, ne_eq, not_true_eq_false, if_true]

theorem State.faultCoord_of_quiet (quiet : (s.channel m).rx.await = .quiet) :
    (s.hunt m).faultCoord m = (s.strandOf m).lastTrigger := by
  simp only [State.faultCoord, State.channel_hunt, quiet, State.strandOf, State.hunt_strand]

/-! ### A lost line before the lock -/

/-- Between `s` and `w` the channel has not been locked hard: it is unlocked, no entry is counted, and the strands
stand. -/
structure StaysUnlocked (m : ChannelId) (s w : State) : Prop where
  unlocked : (w.channel m).lp.state.Unlocked
  cfg : (w.channel m).cfg = (s.channel m).cfg
  count : w.channelCount m .hardEntries = s.channelCount m .hardEntries
  strands : w.strands = s.strands

theorem LocksHard.of_stays {cause : HardCause} {t : State} (stays : StaysUnlocked m s w) (locks : LocksHard m cause w t) :
    LocksHard m cause s t := by
  obtain ⟨lp, free, count, face⟩ := locks
  have face : FaceGoes (w.channel m).cfg.face (fun a b => b = flagLocked a) (w.strandOf m).billet (t.strandOf m).billet :=
    face
  have strand : w.strandOf m = s.strandOf m := by rw [State.strandOf, stays.cfg, strand_eq_of_strands stays.strands]; rfl
  rw [stays.cfg, strand] at face
  exact ⟨lp, free, by rw [count, stays.count], face⟩

theorem LocksHard.of_received {cause : HardCause} {t : State} (same : SameLocks m s u) (locks : LocksHard m cause u t) :
    LocksHard m cause s t := same.locksHard (.refl ..) locks

/-- The end of a line that is held locks the channel hard or leaves it unlocked. -/
theorem State.heldOver_finishLine {line : Nat} {r : Recipe} {out : LineOutcome}
    (unlocked : (s.channel m).lp.state.Unlocked) (e : EndOfLine) :
    (∃ cause, LocksHard m cause s ((s.heldOver m line r out).finishLine m line e)) ∨
      StaysUnlocked m s ((s.heldOver m line r out).finishLine m line e) := by
  have handles := unlocked.handles
  have count : (s.heldOver m line r out).channelCount m .hardEntries = s.channelCount m .hardEntries := by
    rw [State.heldOver_count, if_neg (by decide), add_zero]
  have lp := State.heldOver_lp (r := r) line out handles rfl
  have cfg := s.heldOver_cfg m line r out
  cases e with
  | enterHard cause => exact .inl ⟨cause, (State.heldOver_enterHard rfl line).1⟩
  | stay =>
    refine .inr ⟨?_, cfg, count, s.heldOver_strands m line r out⟩
    rw [State.finishLine, lp, filterAfter_state]
    exact unlocked
  | enterSoft left =>
    obtain ⟨soft, -, -⟩ := State.finishLine_enterSoft (m := m) left line (s.heldOver m line r out)
    have channels := State.lockNotice_channels
      (((s.heldOver m line r out).modLp m fun lp => { lp with state := .softLock left, clearRun := 0, softCount := 0 }).raiseChannel
        m .softEntries) m false false .obscured line
    refine .inr ⟨?_, ?_, ?_, State.offer_strands ..⟩
    · rw [soft]
      exact .inr (.inr ⟨left, rfl⟩)
    · rw [State.finishLine, channel_eq_of_channels channels, State.raiseChannel_channel, State.modLp_eq,
        State.channel_putChannel_self]
      exact cfg
    · rw [State.finishLine, State.channelCount_of_channels channels, State.channelCount_raiseChannel,
        State.channelCount_modLp, if_neg (by decide), add_zero, count]
  | leaveSoft left =>
    obtain ⟨free, -⟩ := State.finishLine_leaveSoft (m := m) left line (s.heldOver m line r out)
    refine .inr ⟨?_, ?_, ?_, State.offer_strands ..⟩
    · rw [free]
      cases left
      · exact .inl rfl
      · exact .inr (.inl rfl)
    · rw [State.finishLine, channel_eq_of_channels (State.lockNotice_channels ..), State.modLp_eq,
        State.channel_putChannel_self]
      exact cfg
    · rw [State.finishLine, State.channelCount_of_channels (State.lockNotice_channels ..), State.channelCount_modLp, count]

theorem State.handleLine_lost_locks {x : Settlement} (lost : x.outcome.lost = true)
    (unlocked : (s.channel m).lp.state.Unlocked) :
    (∃ cause, LocksHard m cause s (s.handleLine m x)) ∨ StaysUnlocked m s (s.handleLine m x) := by
  have handles := unlocked.handles
  have held {r : Recipe} : (s.channel m).lp.state.processes ((s.channel m).clearOn r x.outcome) = false := by
    rw [Channel.clearOn, lost]
    cases (s.channel m).lp.state <;> rfl
  cases recipe : recipeAt (s.strandOf m).history x.coord with
  | none =>
    rw [State.handleLine_of_no_recipe x recipe]
    exact .inr ⟨unlocked, rfl, rfl, rfl⟩
  | some r =>
    rw [State.handleLine_of_held handles x recipe held]
    exact State.heldOver_finishLine unlocked _

/-- The line that the fault discards, and the fault, lock the channel hard once. -/
theorem State.headFault_locksHard (same : SameLocks m s u)
    (lost : (∃ cause, LocksHard m cause u w) ∨ StaysUnlocked m u w) (coord : Nat) :
    ∃ cause, LocksHard m cause s (w.headFault m coord) := by
  rcases lost with ⟨cause, locks⟩ | stays
  · have ⟨lp, _⟩ := locks
    rw [State.headFault_of_locked (cause := cause) (by rw [lp]; rfl)]
    exact ⟨cause, .of_received same locks⟩
  · rw [State.headFault_of_unlocked stays.unlocked]
    exact ⟨.head, .of_received same (.of_stays stays (w.enterHardLock_locksHard m .head coord))⟩

/-- The log that a head fault leaves is that of before it. -/
theorem State.headFault_log (coord : Nat) : ((s.headFault m coord).channel m).lp.log = (s.channel m).lp.log := by
  unfold State.headFault
  split
  iterate 3 rw [State.enterHardLock_channel]; rfl
  all_goals rfl

/-! ### The frame -/

theorem exec_headFault {f : ScanFrame} (runs : s.Runs) (cast : s.InCast m) (completes : s.Completes m f)
    (own : f.header.headId = (s.channel m).cfg.headId) (fault : f.header.status.getLsbD 0 = true) :
    exec (.scanFrame m f) s =
      .next (((s.hunt m).discard m .headFault).headFault m ((s.hunt m).faultCoord m)) := by
  rw [exec_scanFrame_of_completes runs completes, State.classify_hunt_of_headFault cast own fault]

theorem SameLocks.endAwait (s : State) (m : ChannelId) (last : Option Byte) : SameLocks m s (s.endAwait m last) := by
  rw [State.endAwait]
  exact .modRx ..

/-- The state in which the awaited line of channel m, discarded by a head fault, is handled. -/
def State.faulted (s : State) (m : ChannelId) (expected : Byte) : State :=
  (s.setAside m .headFault).endAwait m (some expected)

theorem State.faulted_received (s : State) (m : ChannelId) (expected : Byte) : OnlyReceived m s (s.faulted m expected) :=
  (s.setAside_received m _).trans (State.endAwait_received ..)

theorem State.faulted_sameLocks (s : State) (m : ChannelId) (expected : Byte) : SameLocks m s (s.faulted m expected) :=
  (SameLocks.setAside s m (c := .headFault) rfl).trans (.endAwait ..)

theorem State.discard_faulted {k line : Nat} {expected : Byte}
    (awaiting : (s.channel m).rx.await = .awaiting k line expected) :
    (s.hunt m).discard m .headFault =
      (s.faulted m expected).handleLine m ⟨k, line, .discarded .headFault⟩ := by
  rw [State.discard_hunt_of_awaiting .headFault awaiting]
  rfl

/-- What the discard does to the locks of an unlocked channel. -/
theorem State.discard_locks (unlocked : (s.channel m).lp.state.Unlocked) :
    ∃ u, SameLocks m s u ∧
      ((∃ cause, LocksHard m cause u ((s.hunt m).discard m .headFault)) ∨
        StaysUnlocked m u ((s.hunt m).discard m .headFault)) := by
  cases await : (s.channel m).rx.await with
  | quiet =>
    rw [State.discard_hunt_of_quiet .headFault await]
    have same := SameLocks.setAside s m (c := DiscardCause.headFault.counter) rfl
    exact ⟨_, same, .inr ⟨by rw [same.lp]; exact unlocked, rfl, rfl, rfl⟩⟩
  | awaiting k line expected =>
    rw [State.discard_faulted await]
    exact ⟨_, s.faulted_sameLocks m expected, State.handleLine_lost_locks rfl
      (by rw [(s.faulted_received m expected).lp]; exact unlocked)⟩

theorem Sight.coverage_lost (st : ChannelState) : Sight.lost.coverage st = .unavailable := by
  cases st <;> rfl

theorem State.discard_faulted_log {k line : Nat} {expected : Byte} {e : HistoryEntry}
    (awaiting : (s.channel m).rx.await = .awaiting k line expected)
    (last : ((s.strandOf m).history.filter fun h => h.coord ≤ line).getLast? = some e)
    (handles : (s.channel m).lp.state.handles = true) :
    (((s.hunt m).discard m .headFault).channel m).lp.log = enterCoverage line .unavailable (s.channel m).lp.log := by
  have received := s.faulted_received m expected
  have recipe : recipeAt ((s.faulted m expected).strandOf m).history line = some e.recipe := by
    rw [received.strandOf, recipeAt_of_last last]
  have handles' : ((s.faulted m expected).channel m).lp.state.handles = true := by rw [received.lp, handles]
  rw [State.discard_faulted awaiting, State.handleLine_log _ m handles' _ recipe, coverageClass_eq handles', received.lp]
  exact congrArg (fun cls => enterCoverage line cls _) (Sight.coverage_lost _)

theorem State.headFault_count {t : State} (ofDiscard : t = ((s.hunt m).discard m .headFault).headFault m
    ((s.hunt m).faultCoord m)) : t.channelCount m .headFault = s.channelCount m .headFault + 1 := by
  have counted : ((s.hunt m).discard m .headFault).channelCount m .headFault = s.channelCount m .headFault + 1 := by
    cases await : (s.channel m).rx.await with
    | quiet => rw [State.discard_hunt_of_quiet .headFault await, State.setAside_count]; rfl
    | awaiting k line expected =>
      rw [State.discard_hunt_of_awaiting .headFault await, State.receiverCount_settle _ m (k := .headFault) rfl,
        State.setAside_count]
      rfl
  rw [ofDiscard, State.receiverCount_headFault _ m (k := .headFault) rfl, counted]

/-! ### In HARD_LOCK and in QUIET -/

/-- An awaited line that a fault discards in HARD_LOCK is entered and its tracks held; nothing else. -/
theorem State.discard_faulted_of_hard {k line : Nat} {expected : Byte} {e : HistoryEntry} {cause : HardCause}
    (awaiting : (s.channel m).rx.await = .awaiting k line expected)
    (last : ((s.strandOf m).history.filter fun h => h.coord ≤ line).getLast? = some e)
    (locked : (s.channel m).lp.state = .hardLock cause) :
    let w := (s.hunt m).discard m .headFault
    (w.channel m).lp = { (s.channel m).lp with log := enterCoverage line .unavailable (s.channel m).lp.log } ∧
      HeldBy (s.strandOf m).cfg.countsPerLine line e.recipe (s.channel m).tt (w.channel m).tt ∧
      w.channelCount m .hardEntries = s.channelCount m .hardEntries := by
  intro w
  have same := s.faulted_sameLocks m expected
  have received := s.faulted_received m expected
  have recipe : recipeAt ((s.faulted m expected).strandOf m).history line = some e.recipe := by
    rw [received.strandOf, recipeAt_of_last last]
  have locked' : ((s.faulted m expected).channel m).lp.state = .hardLock cause := by rw [received.lp, locked]
  obtain ⟨ends, lp⟩ := State.handleLine_of_hard ⟨k, line, .discarded .headFault⟩ recipe locked'
  have held := State.heldOver_heldBy (s := s.faulted m expected) (m := m) (r := e.recipe) line (.discarded .headFault)
  have count := (s.faulted m expected).heldOver_count m line e.recipe (.discarded .headFault) .hardEntries
  rw [if_neg (by decide), add_zero, same.counts .hardEntries rfl] at count
  rw [received.strandOf, received.tt] at held
  rw [received.lp] at lp
  rw [show w = _ from (State.discard_faulted awaiting).trans ends]
  exact ⟨lp, held, count⟩

theorem State.receiveAll_linkStats (s : State) (n : StrandId) (rs : List DefectRecord) :
    (s.receiveAll n rs).linkStats = s.linkStats := by
  refine foldl_keeps (P := fun u : State => u.linkStats = s.linkStats) rs s rfl fun u r _ hu => Eq.trans ?_ hu
  unfold State.receive
  split <;> rfl

theorem State.hardened_linkStats (s : State) (m : ChannelId) (cause : HardCause) :
    (s.hardened m cause).linkStats = s.linkStats := by
  have flushed : (s.flush m).linkStats = s.linkStats := by
    rw [State.flush_eq, State.emit, State.receiveAll_linkStats]
    rfl
  exact flushed

/-- Settles O54: the discard of an awaited line, and then the fault. -/
theorem headFaultsLockTheChannel : Obligations.HeadFaultsLockTheChannel := by
  intro s m f runs cast completes own fault c n settles
  have next := exec_headFault runs cast completes own fault
  have kept : LineKept m s (((s.hunt m).discard m .headFault).headFault m ((s.hunt m).faultCoord m)) :=
    ((s.hunt_received m).kept.trans (.discard ..)).trans (.headFault ..)
  have quiet : ((((s.hunt m).discard m .headFault).headFault m ((s.hunt m).faultCoord m)).channel m).rx.await = .quiet := by
    rw [State.headFault_rx, State.discard_ends]
  have count := State.headFault_count (s := s) (m := m) rfl
  refine ⟨fun ⟨cause, locked⟩ await => ?_, fun coord e ⟨cause, locked⟩ ⟨⟨k, expected, awaiting⟩, last⟩ => ?_,
    fun unlocked => ?_⟩
  · rw [next, State.discard_hunt_of_quiet .headFault await,
      State.headFault_of_locked (cause := cause) (by rw [(s.setAside_received m _).lp]; exact locked)]
    rfl
  · obtain ⟨lp, held, entries⟩ := State.discard_faulted_of_hard awaiting last locked
    have stays := State.headFault_of_locked (s := (s.hunt m).discard m .headFault) (cause := cause) (by rw [lp]; exact locked)
      ((s.hunt m).faultCoord m)
    rw [stays] at next kept quiet count
    exact ⟨_, next, lp, held, quiet, count, entries, kept⟩
  · obtain ⟨u, same, lost⟩ := State.discard_locks unlocked
    obtain ⟨cause, locks⟩ := State.headFault_locksHard same lost ((s.hunt m).faultCoord m)
    obtain ⟨lp, free, entries, face⟩ := locks
    refine ⟨_, next, ⟨cause, by rw [lp]; rfl⟩, ?_, by rw [lp]; rfl, free, ?_, quiet, count, entries, kept, ?_, ?_⟩
    · rw [lp]
      exact LineProcessor.unseeded_initial (.hardLock cause)
    · rintro coord e ⟨⟨k, expected, awaiting⟩, last⟩
      rw [State.headFault_log, State.discard_faulted_log awaiting last (ChannelState.Unlocked.handles unlocked)]
    · have strand : (((s.hunt m).discard m .headFault).headFault m ((s.hunt m).faultCoord m)).strandOf m =
          (((s.hunt m).discard m .headFault).headFault m ((s.hunt m).faultCoord m)).strand n := by
        rw [State.strandOf, kept.cfg_eq m]
      rw [strand] at face
      exact face
    · intro await
      have same := s.setAside_received m DiscardCause.headFault.counter
      rw [State.discard_hunt_of_quiet .headFault await, State.faultCoord_of_quiet await,
        State.headFault_of_unlocked (by rw [same.lp]; exact unlocked)]
      refine ⟨?_, (s.setAside m DiscardCause.headFault.counter).hardened m .head, State.hardened_hli .., State.hardened_linkStats .., ?_⟩
      · rw [State.enterHardLock_channel, same.lp]
        rfl
      · rw [State.enterHardLock_eq, State.lockNotice, State.hardened_cfg, same.cfg]
        rfl

end

end Sys2Proof.Machine

/-! Grade changes at a line trigger (08, R156, R159, R160): the entries due, their notices, and the channels restarted. -/

namespace Sys2Proof.Machine

/-! ### The entries due (R159) -/

theorem dueAt_of_split {line : Nat} {due rest : List ScheduleEntry} (now : ∀ e ∈ due, e.coord ≤ line)
    (later : ∀ e, rest.head? = some e → line < e.coord) : dueAt line (due ++ rest) = due := by
  have due_taken : due.takeWhile (fun e => decide (e.coord ≤ line)) = due :=
    List.takeWhile_eq_self_iff.2 fun e mem => decide_eq_true (now e mem)
  have rest_left : rest.takeWhile (fun e => decide (e.coord ≤ line)) = [] := dueAt_of_none later
  rw [dueAt, List.takeWhile_append, if_pos (by rw [due_taken]), rest_left, List.append_nil]

/-! ### The history (R156, R159) -/

section
variable (s : State) (line : Nat)

theorem State.historyWith_of_valid {e : ScheduleEntry} {r : Recipe} (valid : (s.slot e.slot).content = .valid r)
    (h : List HistoryEntry) :
    s.historyWith line h e = enterHistory h ⟨line, e.slot, (s.slot e.slot).revision, false, r⟩ := by
  rw [State.historyWith, valid]

theorem State.historyWith_of_invalid {e : ScheduleEntry} (invalid : (s.slot e.slot).content.isValid = false)
    (h : List HistoryEntry) : s.historyWith line h e = h := by
  rw [State.historyWith]
  cases content : (s.slot e.slot).content with
  | valid r => rw [content] at invalid; exact nomatch invalid
  | empty | writing => rfl

/-- Entries from slots that are not VALID leave the history as it stands. -/
theorem State.foldl_historyWith_filter (due : List ScheduleEntry) (h : List HistoryEntry) :
    due.foldl (s.historyWith line) h =
      (due.filter fun e => (s.slot e.slot).content.isValid).foldl (s.historyWith line) h := by
  induction due generalizing h with
  | nil => rfl
  | cons e due ih =>
    cases valid : (s.slot e.slot).content.isValid with
    | true =>
      rw [List.filter_cons_of_pos (p := fun g : ScheduleEntry => (s.slot g.slot).content.isValid) valid, List.foldl_cons, List.foldl_cons, ih]
    | false =>
      rw [List.filter_cons_of_neg (p := fun g : ScheduleEntry => (s.slot g.slot).content.isValid) (by simp [valid]), List.foldl_cons,
        s.historyWith_of_invalid line valid, ih]

/-- Of the copies entered at one trigger the last one stands, behind a history that has made room for one (R156). -/
theorem State.foldl_historyWith_last {h : List HistoryEntry} (older : ∀ g, h.getLast? = some g → g.coord < line)
    {applied : List ScheduleEntry} (valid : ∀ e ∈ applied, (s.slot e.slot).content.isValid = true) {e : ScheduleEntry}
    {r : Recipe} (last : applied.getLast? = some e) (content : (s.slot e.slot).content = .valid r) :
    applied.foldl (s.historyWith line) h =
      (if 5 ≤ h.length then mergeOldestEntries h else h) ++ [⟨line, e.slot, (s.slot e.slot).revision, false, r⟩] := by
  obtain ⟨before, rfl⟩ := List.getLast?_eq_some_iff.1 last
  induction before using List.reverseRecOn generalizing e r with
  | nil =>
    rw [List.nil_append, List.foldl_cons, List.foldl_nil, s.historyWith_of_valid line content]
    rcases enterHistory_cases h ⟨line, e.slot, (s.slot e.slot).revision, false, r⟩ with
      ⟨before, newest, rfl, same, -⟩ | ⟨-, entered⟩
    · exact absurd same (older newest List.getLast?_concat).ne
    · exact entered
  | append_singleton before e' ih =>
    have valid' : (s.slot e'.slot).content.isValid = true := valid e' (by simp)
    obtain ⟨r', content'⟩ : ∃ r', (s.slot e'.slot).content = .valid r' := by
      cases held : (s.slot e'.slot).content with
      | valid r' => exact ⟨r', rfl⟩
      | empty | writing => rw [held] at valid'; exact nomatch valid'
    have so_far := ih content' (fun g mem => valid g (List.mem_append_left _ mem)) List.getLast?_concat
    rw [List.foldl_append, so_far, List.foldl_cons, List.foldl_nil, s.historyWith_of_valid line content]
    rcases enterHistory_cases ((if 5 ≤ h.length then mergeOldestEntries h else h) ++
        [⟨line, e'.slot, (s.slot e'.slot).revision, false, r'⟩]) ⟨line, e.slot, (s.slot e.slot).revision, false, r⟩ with
      ⟨kept, newest, same, -, entered⟩ | ⟨apart, -⟩
    · rw [entered, (List.append_inj' same rfl).1]
    · exact absurd rfl (apart ⟨line, e'.slot, (s.slot e'.slot).revision, false, r'⟩ List.getLast?_concat)

end

/-! ### The notices (R159) -/

theorem recipeChange_newest (h : List HistoryEntry) (r : Recipe) :
    recipeChange (newestRecipe h) (some r) =
      h.getLast?.any fun e =>
        decide (e.recipe.polarity ≠ r.polarity ∨ e.recipe.leftMargin ≠ r.leftMargin ∨
          e.recipe.rightMargin ≠ r.rightMargin) := by
  rw [newestRecipe]
  cases h.getLast? with
  | none => rfl
  | some e => simp [recipeChange, restartsChannels, bne, beq_eq_decide, Bool.or_assoc]

theorem State.applyEntry_hli {s u : State} (n : StrandId) (line : Nat) (store : u.store = s.store) (e : ScheduleEntry) :
    (u.applyEntry n line (newestRecipe (s.strand n).history) e).hli =
      (u.offer (s.gradeNotice n line e).1 (s.gradeNotice n line e).2).hli := by
  have slot := slot_eq_of_store store e.slot
  unfold State.applyEntry State.gradeNotice
  dsimp only
  rw [slot]
  cases content : (s.slot e.slot).content with
  | empty | writing => rfl
  | valid r =>
    dsimp only
    rw [recipeChange_newest]
    refine State.offer_hli_congr (s := u) ?_ _ _
    rfl

theorem State.foldl_applyEntry_hli {s u : State} (n : StrandId) (line : Nat) (store : u.store = s.store)
    (due : List ScheduleEntry) :
    (due.foldl (State.applyEntry n line (newestRecipe (s.strand n).history)) u).hli =
      (u.offers (due.map (s.gradeNotice n line))).hli := by
  induction due generalizing u with
  | nil => rfl
  | cons e due ih =>
    rw [List.foldl_cons, ih ((State.applyEntry_store ..).trans store), List.map_cons]
    exact State.offers_hli_congr (State.applyEntry_hli n line store e) _

theorem State.applySchedule_hli {s u : State} {n : StrandId} (store : u.store = s.store)
    (history : (u.strand n).history = (s.strand n).history) (line : Nat) :
    (u.applySchedule n line).hli = (u.offers ((dueAt line (u.strand n).schedule).map (s.gradeNotice n line))).hli := by
  unfold State.applySchedule
  dsimp only
  rw [history]
  refine (State.foldl_applyEntry_hli n line (by exact store) _).trans ?_
  refine State.offers_hli_congr (s := u) ?_ _
  rfl

/-- The link of a trigger takes the notices of the entries due first (log 10). -/
theorem State.triggered_hli {s : State} {n : StrandId} {input : EncInput} (triggers : s.Triggers n input) :
    ((s.atLine n input).triggered n).hli =
      (s.offers ((dueAt (s.strand n).nextTrigger (s.strand n).schedule).map (s.gradeNotice n (s.strand n).nextTrigger))).hli := by
  obtain ⟨-, -, -, -, reached, -⟩ := triggers
  have strand : (((s.atLine n input).modStrand n triggeredStrand).raiseStrand n .triggers).strand n =
      { triggeredStrand ((s.strand n).atLine input) with
        stats := ((((s.atLine n input).modStrand n triggeredStrand).raiseStrand n .triggers).strand n).stats } := by
    rw [State.raiseStrand_eq, State.strand_putStrand_self, State.modStrand_eq, State.strand_putStrand_self, State.atLine_strand]
  have hli : (((s.atLine n input).modStrand n triggeredStrand).raiseStrand n .triggers).hli = s.hli := rfl
  have store : (((s.atLine n input).modStrand n triggeredStrand).raiseStrand n .triggers).store = s.store := rfl
  rw [State.triggered, State.atLine_strand, Strand.atLine_eq reached]
  rw [Strand.atLine_eq reached] at strand
  generalize ((s.atLine n input).modStrand n triggeredStrand).raiseStrand n .triggers = u at strand hli store
  have history : (u.strand n).history = (s.strand n).history := by rw [strand]; rfl
  have schedule : (u.strand n).schedule = (s.strand n).schedule := by rw [strand]; rfl
  refine (State.applySchedule_hli store history _).trans ?_
  rw [schedule]
  exact State.offers_hli_congr hli _

theorem State.trigger_grows {s : State} {n : StrandId} {input : EncInput} (triggers : s.Triggers n input) :
    LinkGrows (s.offers ((dueAt (s.strand n).nextTrigger (s.strand n).schedule).map
      (s.gradeNotice n (s.strand n).nextTrigger))) ((s.atLine n input).lineTrigger n) := by
  have before : LinkGrows s ((s.atLine n input).triggered n) :=
    ((s.atLine_kept n input).trans (State.triggered_kept ..)).grows
  refine LinkGrows.of_hli (State.triggered_hli triggers) (LinkGrows.offers ..) before ?_
  rw [State.lineTrigger_eq]
  exact (StrandKept.eachChannel _ _ fun u m => LineKept.takeTrigger m u _ _ _).grows

theorem mergeOldestEntries_eq (a b : HistoryEntry) (newer : List HistoryEntry) :
    mergeOldestEntries (a :: b :: newer) =
      ⟨a.coord, b.slot, b.revision, true,
          { b.recipe with
            rejectSingle := smallestSet a.recipe.rejectSingle b.recipe.rejectSingle
            rejectTotal := smallestSet a.recipe.rejectTotal b.recipe.rejectTotal
            conditionSingle := smallestSet a.recipe.conditionSingle b.recipe.conditionSingle
            conditionCount := smallestSet a.recipe.conditionCount b.recipe.conditionCount
            transReject := smallestSet a.recipe.transReject b.recipe.transReject
            coverageMin := max a.recipe.coverageMin b.recipe.coverageMin }⟩ :: newer := by
  rfl

/-- Settles O28: the entries due leave the schedule and enter the history one by one, each with its notice, before the
channels have their turns. -/
theorem dueGradeChangesEnterTheHistory : Obligations.DueGradeChangesEnterTheHistory := by
  intro s n input due rest triggers x split now later older applied
  have taken : dueAt (s.strand n).nextTrigger (s.strand n).schedule = due := by
    rw [show (s.strand n).schedule = due ++ rest from split]
    exact dueAt_of_split now later
  obtain ⟨from_, schedule, history⟩ := State.trigger_strand triggers
  have grows := State.trigger_grows triggers
  rw [taken] at schedule history grows
  rw [show (s.strand n).schedule = due ++ rest from split, List.drop_left] at schedule
  rw [State.foldl_historyWith_filter] at history
  refine ⟨_, exec_encoderCount_of_triggers triggers, from_, schedule, (s.trigger_kept n input).1,
    State.trigger_reopened triggers, grows, fun nothing => ?_, fun e r last content => ?_⟩
  · rw [history, show due.filter _ = [] from nothing]
    rfl
  · intro added
    have entered := s.foldl_historyWith_last x.nextTrigger older
      (fun g mem => by have := (List.mem_filter.1 mem).2; exact this) last content
    rw [show due.filter _ = applied from rfl, show _ = _ from entered] at history
    refine ⟨fun room => ?_, fun a b newer whole full => ?_⟩
    · rw [history, if_neg (Nat.not_le.2 room)]
    · rw [history, if_pos full.ge, whole, mergeOldestEntries_eq]

end Sys2Proof.Machine

/-! Channels restarted by a grade change (05, R51, R53, R84, R87; 08, R160). -/

namespace Sys2Proof.Machine

section
variable {s u : State} {m : ChannelId} {line : Nat}

/-! ### What a restart leaves of an unlocked channel (R51) -/

theorem restartedLp_eq (lp : LineProcessor) :
    (restartedLp lp).Unseeded ∧ (restartedLp lp).log = lp.log ∧ (restartedLp lp).warmCount = 0 ∧
      (restartedLp lp).state = .warmup ∧ (restartedLp lp).linkRun = lp.linkRun :=
  ⟨LineProcessor.unseeded_initial .warmup, rfl, rfl, rfl, rfl⟩

theorem State.restarted_kept (s : State) (m : ChannelId) : LineKept m s (s.restarted m) :=
  (LineKept.flush m s).trans (.modLp ..)

theorem State.restarted_windowGone {r : Recipe} (newest : newestRecipe (s.strandOf m).history = some r) :
    (s.restarted m).windowGone m = windowEmpty r (s.channel m).cfg.groups := by
  have kept := s.restarted_kept m
  have history : ((s.restarted m).strandOf m).history = (s.strandOf m).history := by
    rw [State.strandOf, kept.cfg_eq m, kept.strand_eq]
    rfl
  rw [State.windowGone, history, newest, kept.cfg_eq m]

/-- The restart of an unlocked channel whose window holds. -/
theorem State.restartChannel_wide (unlocked : (s.channel m).lp.state.Unlocked)
    (wide : (s.restarted m).windowGone m = false) :
    (s.restartChannel m line).channel m = (s.restarted m).channel m ∧
      ((∃ left, (s.channel m).lp.state = .softLock left) →
        s.restartChannel m line = (s.restarted m).lockNotice m true false .recipe line) := by
  have open_ {left : LeftState} (at_ : (s.channel m).lp.state = leftChannelState left) :
      s.restartChannel m line = s.restarted m := by
    rw [State.restartChannel_of_left at_, wide, if_neg Bool.false_ne_true]
  rcases unlocked with st | st | ⟨left, st⟩
  · exact ⟨by rw [open_ (left := .warmup) st], fun ⟨left, soft⟩ => by rw [st] at soft; exact nomatch soft⟩
  · exact ⟨by rw [open_ (left := .active) st], fun ⟨left, soft⟩ => by rw [st] at soft; exact nomatch soft⟩
  · have soft : s.restartChannel m line = (s.restarted m).lockNotice m true false .recipe line := by
      rw [State.restartChannel_of_soft st, wide, if_neg Bool.false_ne_true]
    exact ⟨by rw [soft, channel_eq_of_channels (State.lockNotice_channels ..)], fun _ => soft⟩

theorem State.restartChannel_narrow (unlocked : (s.channel m).lp.state.Unlocked)
    (narrow : (s.restarted m).windowGone m = true) :
    s.restartChannel m line = (s.restarted m).enterHardLock m .window line := by
  rcases unlocked with st | st | ⟨left, st⟩
  · rw [State.restartChannel_of_left (left := .warmup) st, if_pos narrow]
  · rw [State.restartChannel_of_left (left := .active) st, if_pos narrow]
  · rw [State.restartChannel_of_soft st, if_pos narrow]

/-- The notice of a change of lock, offered once the rest is done. -/
def LockOfferedLast (m : ChannelId) (left hard cause : Byte) (line : Nat) (s t : State) : Prop :=
  OfferedLast .channelLock (lockBody m (s.channel m).cfg.strand left hard cause line) s t

/-- The restart of an unlocked channel, by its window under the newest recipe (R51, R84, R87). -/
theorem State.restartChannel_outcome (unlocked : (s.channel m).lp.state.Unlocked) {r : Recipe}
    (newest : newestRecipe (s.strandOf m).history = some r) :
    let c := s.channel m
    let v := s.restartChannel m line
    let d := v.channel m
    d.tt.Empty ∧ d.lp.Unseeded ∧ d.lp.log = c.lp.log ∧ d.lp.warmCount = 0 ∧
      if r.leftMargin + r.rightMargin + 8 ≤ 8 * c.cfg.groups then
        d.lp.state = .warmup ∧ d.lp.linkRun = c.lp.linkRun ∧
          ((∃ left, c.lp.state = .softLock left) → LockOfferedLast m 0x01#8 0x00#8 0x06#8 line s v)
      else
        d.lp.state = .hardLock .window ∧ d.lp.linkRun = 0 ∧
          v.channelCount m .hardEntries = s.channelCount m .hardEntries + 1 ∧
            LockOfferedLast m 0x00#8 0x01#8 0x03#8 line s v := by
  intro c v d
  have gone := State.restarted_windowGone newest
  have cfg := (s.restarted_kept m).cfg_eq m
  obtain ⟨unseeded, log, warm, state, link⟩ := restartedLp_eq (s.channel m).lp
  by_cases wide : r.leftMargin + r.rightMargin + 8 ≤ 8 * c.cfg.groups
  · have holds : (s.restarted m).windowGone m = false := by
      rw [gone, Bool.eq_false_iff, ne_eq, windowEmpty_iff]
      exact Nat.not_lt.2 wide
    obtain ⟨left, soft⟩ := State.restartChannel_wide (line := line) unlocked holds
    rw [if_pos wide, show d = _ from left.trans (s.restarted_channel m)]
    refine ⟨freeTable_empty _, unseeded, log, warm, state, link, fun locked => ?_⟩
    refine ⟨s.restarted m, (s.restarted_kept m).grows, (soft locked).trans ?_⟩
    rw [State.lockNotice, cfg]
    rfl
  · have lost : (s.restarted m).windowGone m = true := by
      rw [gone, windowEmpty_iff]
      exact Nat.not_le.1 wide
    have locks : v = (s.restarted m).enterHardLock m .window line := State.restartChannel_narrow unlocked lost
    have count : v.channelCount m .hardEntries = s.channelCount m .hardEntries + 1 := by
      rw [locks, State.channelCount_enterHardLock, emissionCount_of_other (by decide), if_pos rfl, add_zero,
        s.restarted_count m (by decide)]
    have channel : d = _ := (congrArg (State.channel · m) locks).trans (State.enterHardLock_channel ..)
    rw [if_neg wide, channel, s.restarted_channel m]
    refine ⟨freeTable_empty _, LineProcessor.unseeded_initial (.hardLock .window), log, rfl, rfl, rfl, count,
      (s.restarted m).hardened m .window, ?_, ?_⟩
    · have hardened : LineKept m (s.restarted m) ((s.restarted m).hardened m .window) :=
        (((LineKept.flush ..).trans (.modLp ..)).trans (.raiseChannel ..)).trans (.reportFace ..)
      exact (s.restarted_kept m).grows.trans hardened.grows
    · rw [locks, State.enterHardLock_eq, State.lockNotice, State.hardened_cfg, cfg]
      rfl

/-! ### One due entry from a VALID slot -/

theorem newestRecipe_concat (h : List HistoryEntry) (e : HistoryEntry) : newestRecipe (h ++ [e]) = some e.recipe := by
  rw [newestRecipe, List.getLast?_concat]
  rfl

variable {n : StrandId} {input : EncInput} {e : ScheduleEntry} {r : Recipe} {h : HistoryEntry}
  (triggers : s.Triggers n input) (single : (s.strand n).schedule = [e]) (now : e.coord ≤ (s.strand n).nextTrigger)
  (content : (s.slot e.slot).content = .valid r) (newest : (s.strand n).history.getLast? = some h)
  (older : h.coord < (s.strand n).nextTrigger)
include triggers single now content newest older

/-- The copy that the single entry due enters is the newest recipe when the channels have their turns. -/
theorem State.newestAtTrigger : newestRecipe (((s.atLine n input).triggered n).strand n).history = some r := by
  obtain ⟨-, -, history⟩ := State.triggered_atLine triggers
  have taken : dueAt (s.strand n).nextTrigger (s.strand n).schedule = [e] := by
    rw [single]
    exact dueAt_of_split (rest := []) (fun g mem => by obtain rfl := List.mem_singleton.1 mem; exact now) nofun
  have entered := s.foldl_historyWith_last (s.strand n).nextTrigger (h := (s.strand n).history) (applied := [e])
    (fun g own => by rw [newest] at own; obtain rfl := Option.some.inj own; exact older)
    (fun g mem => by rw [List.mem_singleton.1 mem, content]; rfl) rfl content
  rw [history, taken, entered, newestRecipe_concat]

/-- The grade change restarts the channels when it alters polarity or a margin (R160). -/
theorem State.restarts_iff :
    s.restarts n input = true ↔
      ¬(h.recipe.polarity = r.polarity ∧ h.recipe.leftMargin = r.leftMargin ∧ h.recipe.rightMargin = r.rightMargin) := by
  have after := State.newestAtTrigger triggers single now content newest older
  obtain ⟨-, -, -, -, reached, -⟩ := triggers
  rw [State.restarts, State.restartsAtTrigger, after, State.atLine_strand, Strand.atLine_eq reached, recipeChange_newest,
    newest]
  simp only [Option.any_some, decide_eq_true_iff, not_and_or, ne_eq]

end

/-! ### The turn of a QUIET channel -/

section
variable {s : State} {n : StrandId} {input : EncInput} {m : ChannelId}

theorem State.turnFrom_of_quiet {u : State} (quiet : (u.channel m).rx.await = .quiet) :
    s.turnFrom n input m u =
      (if s.restarts n input then u.restartChannel m (s.strand n).nextTrigger else u).beginAwait m
        ((s.strand n).nextTrigger / (s.strand n).cfg.countsPerLine) (s.strand n).nextTrigger := by
  rw [State.turnFrom, State.takeTrigger_eq, State.cleared, u.settleMissed_of_quiet m quiet]

theorem State.beginAwait_channel (u : State) (k line : Nat) :
    (u.beginAwait m k line).channel m = { u.channel m with rx := ((u.beginAwait m k line).channel m).rx } := by
  rw [State.beginAwait, State.modRx_eq, State.channel_putChannel_self]

theorem State.beginAwait_count (u : State) (k line : Nat) (c : ChannelCounter) :
    (u.beginAwait m k line).channelCount m c = u.channelCount m c := State.channelCount_modRx ..

end

/-- Settles O29: the turn of the channel, with a restart when the copy entered alters polarity or a margin. -/
theorem gradeChangesRestartChannels : Obligations.GradeChangesRestartChannels := by
  intro s n m input e r h triggers x c single now content newest older on own quiet unlocked offered
  obtain ⟨u, before, after⟩ := State.trigger_turn triggers on own
  obtain ⟨channel, cfg⟩ := State.turn_channel own before
  have restarts := State.restarts_iff triggers single now content newest older
  have history : newestRecipe (u.strandOf m).history = some r := by
    have mine : u.strandOf m = u.strand n := by rw [State.strandOf, channel, own]
    rw [mine, before.strand]
    exact State.newestAtTrigger triggers single now content newest older
  have turn := State.turnFrom_of_quiet (s := s) (n := n) (input := input) (m := m) (u := u) (by rw [channel]; exact quiet)
  rw [turn] at after
  refine ⟨_, exec_encoderCount_of_triggers triggers, ?_⟩
  split
  · next same =>
    have calm : s.restarts n input = false := Bool.eq_false_iff.2 fun on => (restarts.1 on) same
    rw [calm, if_neg Bool.false_ne_true] at after
    rw [after.channel, State.beginAwait_channel, channel]
    exact ⟨rfl, rfl⟩
  · next alters =>
    rw [restarts.2 alters, if_pos rfl] at after
    have outcome := State.restartChannel_outcome (line := (s.strand n).nextTrigger)
      (show (u.channel m).lp.state.Unlocked by rw [channel]; exact unlocked) history
    have grown : LinkGrows s u := ((s.atLine_kept n input).trans (State.triggered_kept ..)).grows.trans before.grows
    have behind : LinkGrows (u.restartChannel m (s.strand n).nextTrigger) ((s.atLine n input).lineTrigger n) :=
      (LinkGrows.beginAwait ..).trans after.grows
    have counted : u.channelCount m .hardEntries = s.channelCount m .hardEntries := by rw [State.channelCount, channel]; rfl
    have count : ((s.atLine n input).lineTrigger n).channelCount m .hardEntries =
        (u.restartChannel m (s.strand n).nextTrigger).channelCount m .hardEntries := by
      refine Eq.trans ?_ (State.beginAwait_count (m := m) _ ((s.strand n).nextTrigger / (s.strand n).cfg.countsPerLine)
        (s.strand n).nextTrigger .hardEntries)
      rw [State.channelCount, after.channel]
      rfl
    have among {left hard cause : Byte} (last : LockOfferedLast m left hard cause (s.strand n).nextTrigger u
        (u.restartChannel m (s.strand n).nextTrigger)) : offered left hard cause ((s.atLine n input).lineTrigger n) := by
      obtain ⟨w, grows, is⟩ := last
      rw [is, channel, own] at behind
      exact ⟨w, grown.trans grows, behind⟩
    rw [channel, counted] at outcome
    obtain ⟨free, unseeded, log, warm, locks⟩ := outcome
    rw [after.channel, State.beginAwait_channel, count]
    refine ⟨free, unseeded, log, warm, ?_⟩
    by_cases wide : r.leftMargin + r.rightMargin + 8 ≤ 8 * c.cfg.groups
    · rw [if_pos wide] at locks ⊢
      obtain ⟨state, link, left⟩ := locks
      exact ⟨state, link, fun soft => among (left soft)⟩
    · rw [if_neg wide] at locks ⊢
      obtain ⟨state, link, entries, entered⟩ := locks
      exact ⟨state, link, entries, among entered⟩

end Sys2Proof.Machine

/-! A processed line (03; 05, R89): the frame that is taken and clear in WARMUP or ACTIVE, and its arithmetic. -/

namespace Sys2Proof.Machine

theorem filterAfter_clear {lp : LineProcessor} {left : LeftState} (at_ : lp.state = leftChannelState left) (lost : Bool) :
    filterAfter lost true lp = { lp with linkRun := linkRunAfter lost lp, obscuredRun := 0 } := by
  cases lp
  obtain rfl : _ = leftChannelState left := at_
  cases left <;> rfl

/-! ### The frame (R33, R41) -/

section
variable {s : State} {m : ChannelId} {f : ScanFrame}

/-- The state in which the line of a taken frame is handled. -/
def State.received (s : State) (m : ChannelId) (f : ScanFrame) : State := (s.counted m f).endAwait m (some f.header.tag)

theorem State.received_only (s : State) (m : ChannelId) (f : ScanFrame) : OnlyReceived m s (s.received m f) :=
  (s.counted_received m f).trans (State.endAwait_received ..)

theorem State.received_sameLocks (s : State) (m : ChannelId) (f : ScanFrame) : SameLocks m s (s.received m f) :=
  (s.counted_sameLocks m f).trans (.endAwait ..)

/-- The state in which a clear line of channel m in WARMUP or ACTIVE is processed: counted, filtered and entered. -/
def State.processing (s : State) (m : ChannelId) (f : ScanFrame) (coord : Nat) (r : Recipe) : State :=
  (s.received m f).entered m coord r (.taken (frameSamples f))

theorem State.processing_cfg (s : State) (m : ChannelId) (f : ScanFrame) (coord : Nat) (r : Recipe) :
    ((s.processing m f coord r).channel m).cfg = (s.channel m).cfg := by
  rw [State.processing, State.entered_channel]
  exact (s.received_only m f).cfg

theorem State.processing_tt (s : State) (m : ChannelId) (f : ScanFrame) (coord : Nat) (r : Recipe) :
    ((s.processing m f coord r).channel m).tt = (s.channel m).tt := by
  rw [State.processing, State.entered_channel]
  exact (s.received_only m f).tt

theorem State.processing_strandOf (s : State) (m : ChannelId) (f : ScanFrame) (coord : Nat) (r : Recipe) :
    (s.processing m f coord r).strandOf m = s.strandOf m := by
  rw [State.strandOf, State.processing_cfg]
  rfl

/-- A channel in which a clear line is processed. -/
def ChannelState.Processing (st : ChannelState) : Prop := st = .warmup ∨ st = .active

variable {coord : Nat} {r : Recipe} (ready : (s.channel m).lp.state.Processing)
  (clear : (s.channel m).obscures r (frameSamples f) = false)
include ready clear

theorem Channel.clearOn_of_clear : (s.channel m).clearOn r (.taken (frameSamples f)) = true := by
  have free : (s.channel m).hardLocked = false := by rcases ready with st | st <;> rw [Channel.hardLocked, st]
  rw [Channel.clearOn, Channel.sees, free, takenObscured_eq, clear]
  rfl

theorem State.received_clearOn : ((s.received m f).channel m).clearOn r (.taken (frameSamples f)) = true := by
  rw [(s.received_only m f).channel]
  exact Channel.clearOn_of_clear ready clear

/-- Processing begins with the line entered, the link run and the obscured run at 0. -/
theorem State.processing_lp :
    ((s.processing m f coord r).channel m).lp =
      { (s.channel m).lp with
        linkRun := 0, obscuredRun := 0
        log := enterCoverage coord (if (s.channel m).lp.state = .active then .inspected else .unavailable)
          (s.channel m).lp.log } := by
  have clearOn := State.received_clearOn ready clear
  have unseen : ((s.received m f).channel m).sees r (.taken (frameSamples f)) = false := by
    simpa only [Channel.clearOn, LineOutcome.lost, Bool.not_false, Bool.true_and, Bool.not_eq_true'] using clearOn
  have filtered : filterAfter false true (s.channel m).lp = { (s.channel m).lp with linkRun := 0, obscuredRun := 0 } := by
    rcases ready with st | st
    · exact filterAfter_clear (left := .warmup) st false
    · exact filterAfter_clear (left := .active) st false
  have class_ : coverageClass (s.channel m).lp.state false false =
      if (s.channel m).lp.state = .active then .inspected else .unavailable := by
    rcases ready with st | st <;> rw [st] <;> rfl
  rw [State.processing, State.entered_channel, clearOn, unseen, (s.received_only m f).lp]
  simp only [LineOutcome.lost]
  rw [filtered, class_]

theorem exec_processed {k : Nat} {e : HistoryEntry} (runs : s.Runs) (cast : s.InCast m) (completes : s.Completes m f)
    (accepts : s.Accepts m f) (awaiting : (s.channel m).rx.await = .awaiting k coord f.header.tag)
    (last : ((s.strandOf m).history.filter fun h => h.coord ≤ coord).getLast? = some e) (same : e.recipe = r) :
    exec (.scanFrame m f) s =
      .next ((s.processing m f coord r).processLine m coord r true (.taken (frameSamples f))) := by
  have received := s.received_only m f
  have recipe : recipeAt ((s.received m f).strandOf m).history coord = some r := by
    rw [received.strandOf, recipeAt_of_last last, same]
  have clearOn := State.received_clearOn ready clear
  have processes : ((s.received m f).channel m).lp.state.processes
      (((s.received m f).channel m).clearOn r (.taken (frameSamples f))) = true := by
    rw [clearOn, received.lp]
    rcases ready with st | st <;> rw [st] <;> rfl
  have handled := State.handleLine_of_processes ⟨k, coord, .taken (frameSamples f)⟩ recipe processes
  rw [exec_takeLine runs cast completes accepts awaiting, State.settle]
  exact congrArg _ (handled.trans (by rw [clearOn]; rfl))

end

/-! ### The arithmetic (R40 to R47) -/

/-- What the obscured-line test counts, over the columns of the line. -/
theorem Channel.obscures_eq_false (c : Channel) (r : Recipe) (samples : List Sample) :
    c.obscures r samples = false ↔
      100 * ((List.range (8 * c.cfg.groups)).filter fun j =>
          (decide (r.leftMargin ≤ j) && decide (j + r.rightMargin < 8 * c.cfg.groups)) && c.lp.unusable samples j).length <
        r.obscurePct * (8 * c.cfg.groups - r.leftMargin - r.rightMargin) := by
  unfold Channel.obscures
  dsimp only
  rw [decide_eq_false_iff_not, Nat.not_le, List.filter_filter]
  simp only [Bool.and_comm]

theorem residual_eq (p : Polarity) (baseline x : Nat) :
    residual p baseline x =
      if p = .dark then (-(16 * (x : Int) - baseline)).tdiv 16 else (16 * (x : Int) - baseline).tdiv 16 := by
  cases p
  · rw [residual, if_pos rfl, Int.neg_sub]
  · rw [residual, if_neg (by decide)]

/-- One column of a processed line, as the statements write it. -/
theorem columnsAfter_get (r : Recipe) (groups : Nat) (active : Bool) (samples : List Sample) (cols : Vector Column 256)
    (j : Fin 256) :
    (columnsAfter r groups active samples cols)[j] =
      (let col := cols[j]
      let x := samples.getD j ⟨0, true⟩
      let d : Int := 16 * x.value - col.baseline
      let residual : Int := if r.polarity = .dark then (-d).tdiv 16 else d.tdiv 16
      let hit := active && decide ((r.hitThreshold : Int) ≤ residual)
      if (decide (r.leftMargin ≤ j.val) && decide (j.val + r.rightMargin < 8 * groups)) &&
          (!x.invalid && x.value != 0 && x.value != 4095 && (col.seeded || !active)) then
        if col.seeded then ⟨(col.baseline + d.tdiv (2 ^ (if hit then r.shiftK + 3 else r.shiftK))).toNat, true⟩
        else ⟨16 * x.value, true⟩
      else col) := by
  have cell : (columnsAfter r groups active samples cols)[j] = columnAfter r groups active samples j.val cols[j] := by
    simp only [columnsAfter, Fin.getElem_fin, Vector.getElem_ofFn]
  rw [cell, columnAfter]
  simp only [inWindow, columnCount, usable, sampleAt, stepBaseline, stepShift, isHit, residual_eq, Nat.cast_pow, Nat.cast_ofNat]
  refine ite_congr rfl (fun _ => ite_congr rfl (fun seeded => ?_) fun _ => rfl) fun _ => rfl
  rw [seeded]

theorem columns_getD (cols : Vector Column 256) (j : Fin 256) : cols.getD j.val ⟨0, false⟩ = cols[j] := by
  simp [Vector.getD]

/-- The columns that a line may use are those that are not unusable (R40). -/
theorem LineProcessor.unusable_eq (lp : LineProcessor) (samples : List Sample) (j : Nat) :
    lp.unusable samples j =
      !(!(samples.getD j ⟨0, true⟩).invalid && (samples.getD j ⟨0, true⟩).value != 0 &&
        (samples.getD j ⟨0, true⟩).value != 4095 && ((lp.columns.getD j ⟨0, false⟩).seeded || !lp.state.tracking)) := by
  rw [← usable_eq, usable, seedingOver_eq]
  rfl

theorem ChannelState.Processing.tracking_eq {st : ChannelState} (ready : st.Processing) :
    st.tracking = decide (st = .active) := by
  rcases ready with rfl | rfl <;> rfl

section
variable {s : State} {m : ChannelId} {f : ScanFrame} {coord : Nat} {r : Recipe}
  (clear : (s.channel m).obscures r (frameSamples f) = false)
include clear

theorem State.processed_lp_of_active (active : (s.channel m).lp.state = .active) :
    (((s.processing m f coord r).processLine m coord r true (.taken (frameSamples f))).channel m).lp =
      { (s.channel m).lp with
        linkRun := 0, obscuredRun := 0
        log := enterCoverage coord .inspected (s.channel m).lp.log
        columns := columnsAfter r (s.channel m).cfg.groups true (frameSamples f) (s.channel m).lp.columns } := by
  have lp := State.processing_lp (coord := coord) (.inr active) clear
  rw [if_pos active] at lp
  have st : ((s.processing m f coord r).channel m).lp.state = .active := by rw [lp]; exact active
  rw [State.processLine_of_active _ m st, State.processActive_channel, activeLp, lp, State.processing_cfg]

theorem State.processed_lp_of_warmup (warmup : (s.channel m).lp.state = .warmup) :
    (((s.processing m f coord r).processLine m coord r true (.taken (frameSamples f))).channel m).lp =
      { (s.channel m).lp with
        linkRun := 0, obscuredRun := 0
        log := enterCoverage coord .unavailable (s.channel m).lp.log
        columns := columnsAfter r (s.channel m).cfg.groups false (frameSamples f) (s.channel m).lp.columns
        warmCount := (s.channel m).lp.warmCount + 1
        state := if r.warmLines ≤ (s.channel m).lp.warmCount + 1 then .active else .warmup } := by
  have lp := State.processing_lp (coord := coord) (.inl warmup) clear
  rw [if_neg (by rw [warmup]; decide)] at lp
  have st : ((s.processing m f coord r).channel m).lp.state = .warmup := by rw [lp]; exact warmup
  rw [State.processLine_of_warmup _ m st, State.holdTracks_channel, State.modLp_eq,
    State.channel_putChannel_self, warmupLp, lp, State.processing_cfg]

end

/-- Settles O57: the arithmetic of a WARMUP line and of an ACTIVE one, on the line entered. -/
theorem processedLinesMoveTheBaselines : Obligations.ProcessedLinesMoveTheBaselines := by
  intro s m f k coord e runs cast completes accepts awaiting c r samples active inWin fit lost last ready few
  have clear : c.obscures r samples = false := by
    rw [Channel.obscures_eq_false]
    simp only [LineProcessor.unusable_eq, ChannelState.Processing.tracking_eq ready]
    exact few
  have next := exec_processed ready clear runs cast completes accepts awaiting last rfl
  refine ⟨_, next, ?_⟩
  rcases ready with warmup | act
  · have lp := State.processed_lp_of_warmup (coord := coord) clear warmup
    have still : c.lp.state ≠ .active := by rw [warmup]; decide
    rw [lp]
    refine ⟨fun j => ?_, rfl, rfl, by rw [if_neg still], fun at_ => absurd at_ still, fun _ => ⟨rfl, rfl⟩⟩
    have cold : active = false := decide_eq_false still
    rw [columnsAfter_get]
    simp only [cold, inWin, fit, columns_getD]
    rfl
  · have lp := State.processed_lp_of_active (coord := coord) clear act
    rw [lp]
    refine ⟨fun j => ?_, rfl, rfl, by rw [if_pos act], fun _ => ⟨act, rfl⟩, fun warm => absurd (act.symm.trans warm) nofun⟩
    have hot : active = true := decide_eq_true act
    rw [columnsAfter_get]
    simp only [hot, inWin, fit, columns_getD]
    rfl

end Sys2Proof.Machine

/-! A processed ACTIVE line (03, R44, R48; 04): its hits, its runs and what they come to, its counters, and the records
that reach the pending queue. -/

namespace Sys2Proof.Machine

/-! ### The hits (R40, R43, R44, R48) -/

theorem filterMap_ite {α β : Type} (p : α → Bool) (g : α → β) (l : List α) :
    (l.filterMap fun a => if p a then some (g a) else none) = (l.filter p).map g := by
  induction l with
  | nil => rfl
  | cons a l ih => cases own : p a <;> simp [own, ih]

/-- The hits of a line: the columns that stand out, each with its residual. -/
theorem lineHits_eq (r : Recipe) (groups : Nat) (samples : List Sample) (cols : Vector Column 256) :
    lineHits r groups samples cols =
      ((windowColumns r groups).filter fun c =>
        usable true (columnAt cols c) (sampleAt samples c) && (columnAt cols c).seeded &&
          isHit r true (columnAt cols c).baseline (sampleAt samples c).value).map fun c =>
            (c, (residual r.polarity (columnAt cols c).baseline (sampleAt samples c).value).toNat) :=
  filterMap_ite _ _ _

/-- The columns of the line that may be inspected: a good sample over a seeded baseline. -/
theorem usable_and_seeded (col : Column) (x : Sample) :
    (usable true col x && col.seeded) =
      (!x.invalid && x.value != 0 && x.value != 4095 && col.seeded) := by
  unfold usable
  cases col.seeded <;> simp

theorem isHit_iff (r : Recipe) (baseline x : Nat) :
    isHit r true baseline x = true ↔ (r.hitThreshold : Int) ≤ residual r.polarity baseline x := decide_eq_true_iff

theorem inWindow_iff (r : Recipe) (groups j : Nat) :
    inWindow r groups j = true ↔ r.leftMargin ≤ j ∧ j + r.rightMargin < 8 * groups := by
  rw [inWindow, Bool.and_eq_true, decide_eq_true_eq, decide_eq_true_eq]
  rfl

/-- The hits of a line, column by column. -/
theorem LineProcessor.hitsOn_eq (lp : LineProcessor) (r : Recipe) (groups : Nat) (samples : List Sample) :
    lp.hitsOn r groups samples = lineHits r groups samples lp.columns := by
  rw [LineProcessor.hitsOn, lineHits, windowColumns, List.filterMap_filter]
  refine List.filterMap_congr fun j _ => ?_
  simp only [hitAt, usable_and_seeded]
  rw [← ite_and]
  refine if_congr ?_ (by rw [residual_eq]; rfl) rfl
  simp only [Bool.and_eq_true, isHit_iff, inWindow_iff, residual_eq, columnAt, sampleAt, bne_iff_ne,
    Bool.not_eq_true', ne_eq, and_assoc]

/-! ### The state in which the line is processed -/

section
variable (s : State) (m : ChannelId) (f : ScanFrame) (coord : Nat) (r : Recipe)
  (ready : (s.channel m).lp.state.Processing) (clear : (s.channel m).obscures r (frameSamples f) = false)

/-- No counter of the line's runs, tracks or records has moved when its processing begins. -/
theorem State.processing_count {k : ChannelCounter} (own : ofReceiver k = false) (unobscured : k ≠ .obscuredLines) :
    (s.processing m f coord r).channelCount m k = s.channelCount m k := by
  rw [State.processing, State.channelCount_entered, if_neg unobscured, add_zero,
    (s.received_sameLocks m f).counts k own]

theorem State.processing_gateAt :
    (s.processing m f coord r).gateAt m coord = s.gateAt m coord := by
  rw [State.gateAt, State.processing_strandOf]
  rfl

include ready clear

theorem State.processing_runsAt :
    (s.processing m f coord r).runsAt m coord r (frameSamples f) = s.runsAt m coord r (frameSamples f) := by
  rw [State.runsAt, State.processing_gateAt, State.processing_cfg, State.processing_lp ready clear]
  rfl

theorem State.processing_associationAt :
    (s.processing m f coord r).associationAt m coord r (frameSamples f) =
      s.associationAt m coord r (frameSamples f) := by
  rw [State.associationAt, State.processing_runsAt s m f coord r ready clear, State.processing_strandOf,
    State.processing_tt]
  rfl

theorem State.processing_closedAt :
    (s.processing m f coord r).closedAt m coord r (frameSamples f) = s.closedAt m coord r (frameSamples f) := by
  have recordOf : (s.processing m f coord r).recordOf m = s.recordOf m := by
    funext t
    rw [State.recordOf, State.processing_strandOf, State.processing_cfg]
    rfl
  rw [State.closedAt, State.processing_associationAt s m f coord r ready clear, recordOf]
  rfl

theorem State.processing_transversesAt :
    (s.processing m f coord r).transversesAt m coord r (frameSamples f) =
      s.transversesAt m coord r (frameSamples f) := by
  rw [State.transversesAt, State.processing_runsAt s m f coord r ready clear, State.processing_gateAt,
    State.processing_strandOf, State.processing_cfg]
  rfl

end

/-! ### The counters (R58, R68, R69, R101, R102, R104, R109) -/

section
variable {s : State} {m : ChannelId} {f : ScanFrame} {coord : Nat} {r : Recipe}
  (active : (s.channel m).lp.state = .active) (clear : (s.channel m).obscures r (frameSamples f) = false)
include active clear

/-- A counter of the channel after a processed ACTIVE line. -/
theorem State.processed_count {k : ChannelCounter} (own : ofReceiver k = false) (unobscured : k ≠ .obscuredLines) :
    ((s.processing m f coord r).processLine m coord r true (.taken (frameSamples f))).channelCount m k =
      s.channelCount m k + runCounts (s.runsAt m coord r (frameSamples f)) k +
        associationCounts (s.associationAt m coord r (frameSamples f)) k +
        emissionCount r.minDefectMm (s.closedAt m coord r (frameSamples f)) k := by
  have ready : (s.channel m).lp.state.Processing := .inr active
  have st : ((s.processing m f coord r).channel m).lp.state = .active := by
    rw [State.processing_lp ready clear]
    exact active
  rw [State.processLine_of_active _ m st, State.channelCount_processActive, State.processing_count s m f coord r own unobscured,
    State.processing_runsAt s m f coord r ready clear, State.processing_associationAt s m f coord r ready clear,
    State.processing_closedAt s m f coord r ready clear]

end

/-! ### The strand (R69, R102, R109, R125, R126) -/

section
variable (s : State) (m : ChannelId)

theorem modFace_of_unset (f : Face) (b : OpenBillet) : modFace f (fun h => h) b = b := by
  simp [modFace]

theorem modFace_modFace (f : Face) (g h : FaceFlags → FaceFlags) (b : OpenBillet) :
    modFace f g (modFace f h b) = modFace f (g ∘ h) b := by
  simp [modFace]

/-- The strand with the flags of a face of its open billet changed (R125). -/
def Strand.markFace (x : Strand) (f : Face) (g : FaceFlags → FaceFlags) : Strand :=
  { x with billet := x.billet.map (modFace f g) }

theorem Strand.markFace_markFace (x : Strand) (f : Face) (g h : FaceFlags → FaceFlags) :
    (x.markFace f g).markFace f h = x.markFace f (h ∘ g) := by
  have composed : modFace f h ∘ modFace f g = modFace f (h ∘ g) := funext fun b => modFace_modFace f h g b
  simp only [Strand.markFace, Option.map_map, composed]

theorem Strand.markFace_unset (x : Strand) (f : Face) : x.markFace f (fun h => h) = x := by
  have unset : modFace f (fun h => h) = id := funext fun b => modFace_of_unset f b
  rw [Strand.markFace, unset, Option.map_id]
  rfl

theorem State.reportWhen_strand (report : Bool) (g : FaceFlags → FaceFlags) :
    (s.reportWhen m report g).strand (s.channel m).cfg.strand =
      (s.strandOf m).markFace (s.channel m).cfg.face fun h => if report then g h else h := by
  cases report with
  | true =>
    rw [State.reportWhen, if_pos rfl, State.reportFace, State.modBillet, State.modStrand_eq, State.strand_putStrand_self]
    rfl
  | false =>
    rw [State.reportWhen, if_neg Bool.false_ne_true]
    exact (Strand.markFace_unset ..).symm

theorem State.reportTwice_strand (first second : Bool) (g h : FaceFlags → FaceFlags) :
    ((s.reportWhen m first g).reportWhen m second h).strand (s.channel m).cfg.strand =
      (s.strandOf m).markFace (s.channel m).cfg.face
        ((fun f => if second then h f else f) ∘ fun f => if first then g f else f) := by
  have cfg := congrArg Channel.cfg (channel_eq_of_channels (s.reportWhen_channels m first g) m)
  have once := s.reportWhen_strand m first g
  generalize s.reportWhen m first g = v at cfg once ⊢
  have twice := v.reportWhen_strand m second h
  rw [State.strandOf, cfg, once, Strand.markFace_markFace] at twice
  exact twice

/-- What a processed ACTIVE line sets on its face of an open billet (R58, R102). -/
def lineFlags (overflow full : Bool) (g : FaceFlags) : FaceFlags :=
  { g with runOverflow := g.runOverflow || overflow, tableFull := g.tableFull || full }

theorem lineFlags_eq (overflow full : Bool) :
    (fun g : FaceFlags => if full then { g with tableFull := true } else g) ∘
      (fun g : FaceFlags => if overflow then { g with runOverflow := true } else g) = lineFlags overflow full := by
  funext g
  cases overflow <;> cases full <;> simp [lineFlags]

/-- The state that an ACTIVE line leaves before it sets its flags. -/
def State.unflagged (line : Nat) (r : Recipe) (samples : List Sample) : State :=
  (((s.modLp m (activeLp r (s.channel m).cfg.groups samples)).modTt m fun _ =>
    (s.associationAt m line r samples).table).countRuns m (s.runsAt m line r samples)).countAssociation m
      (s.associationAt m line r samples)

theorem State.unflagged_strands (line : Nat) (r : Recipe) (samples : List Sample) :
    (s.unflagged m line r samples).strands = s.strands := rfl

theorem State.unflagged_cfg (line : Nat) (r : Recipe) (samples : List Sample) :
    ((s.unflagged m line r samples).channel m).cfg = (s.channel m).cfg := by
  rw [State.unflagged, State.countAssociation_channel, State.countRuns_frame, State.channel_putChannel_self,
    State.modTt_eq, State.channel_putChannel_self, State.modLp_eq, State.channel_putChannel_self]

theorem State.countedAt_eq (line : Nat) (r : Recipe) (samples : List Sample) :
    s.countedAt m line r samples =
      (((s.unflagged m line r samples).reportWhen m (s.runsAt m line r samples).overflow fun f =>
        { f with runOverflow := true }).reportWhen m (decide (0 < (s.associationAt m line r samples).dropped)) fun f =>
          { f with tableFull := true }).countEmission m r.minDefectMm (s.closedAt m line r samples) := rfl

theorem State.countedAt_strand (line : Nat) (r : Recipe) (samples : List Sample) :
    (s.countedAt m line r samples).strand (s.channel m).cfg.strand =
      (s.strandOf m).markFace (s.channel m).cfg.face
        (lineFlags (s.runsAt m line r samples).overflow (decide (0 < (s.associationAt m line r samples).dropped))) := by
  have cfg := s.unflagged_cfg m line r samples
  have strand := strand_eq_of_strands (s.unflagged_strands m line r samples) (s.channel m).cfg.strand
  rw [State.countedAt_eq, strand_eq_of_strands (State.countEmission_strands ..)]
  generalize s.unflagged m line r samples = u at cfg strand ⊢
  have twice := u.reportTwice_strand m (s.runsAt m line r samples).overflow
    (decide (0 < (s.associationAt m line r samples).dropped)) (fun f => { f with runOverflow := true })
    fun f => { f with tableFull := true }
  rw [State.strandOf, cfg, strand, lineFlags_eq] at twice
  exact twice

/-- What the records of an ACTIVE line come to as they reach the pending queue: the transverse ones and the
longitudinal ones, each in their order. -/
def State.receivedAt (line : Nat) (r : Recipe) (samples : List Sample) : List DefectRecord :=
  let transverses := s.transversesAt m line r samples
  let longitudinals := (s.closedAt m line r samples).filter (longEnough r.minDefectMm)
  (mergeOpen Config.transverseFirst (transverses.length + longitudinals.length) (s.countedAt m line r samples).draws
    transverses longitudinals).1

theorem State.processActive_strand (line : Nat) (r : Recipe) (samples : List Sample) :
    (s.processActive m line r samples).strand (s.channel m).cfg.strand =
      (s.receivedAt m line r samples).foldl Strand.receive
        ((s.countedAt m line r samples).strand (s.channel m).cfg.strand) := by
  rw [State.processActive_eq, State.receivedAt]
  generalize s.countedAt m line r samples = u, s.transversesAt m line r samples = transverses,
    (s.closedAt m line r samples).filter (longEnough r.minDefectMm) = longitudinals
  exact State.receiveAll_strand (u.drawn _) _ _

end

/-- Merging keeps the order of each list. -/
theorem mergeOpen_sublists {α : Type} (pick : Nat → Bool) (fuel i : Nat) (xs ys : List α) :
    xs.Sublist (mergeOpen pick fuel i xs ys).1 ∧ ys.Sublist (mergeOpen pick fuel i xs ys).1 := by
  induction fuel generalizing i xs ys with
  | zero => exact ⟨List.sublist_append_left .., List.sublist_append_right ..⟩
  | succ fuel ih =>
    cases xs with
    | nil => exact ⟨List.nil_sublist _, .refl _⟩
    | cons x xs =>
      cases ys with
      | nil => exact ⟨.refl _, List.nil_sublist _⟩
      | cons y ys =>
        unfold mergeOpen
        split
        · exact ⟨(ih (i + 1) xs (y :: ys)).1.cons_cons x, (ih (i + 1) xs (y :: ys)).2.cons x⟩
        · exact ⟨(ih (i + 1) (x :: xs) ys).1.cons y, (ih (i + 1) (x :: xs) ys).2.cons_cons y⟩

section
variable (s : State) (m : ChannelId) (line : Nat) (r : Recipe) (samples : List Sample)

theorem State.receivedAt_length :
    (s.receivedAt m line r samples).length =
      (s.transversesAt m line r samples).length + ((s.closedAt m line r samples).filter (longEnough r.minDefectMm)).length := by
  rw [State.receivedAt, (mergeOpen_perm ..).length_eq, List.length_append]

theorem State.transversesAt_length_le : (s.transversesAt m line r samples).length ≤ 16 := by
  rw [State.transversesAt, List.length_map]
  exact (List.length_filter_le ..).trans ((List.length_filter_le ..).trans (List.length_take_le ..))

theorem State.closedAt_length_le : (s.closedAt m line r samples).length ≤ 16 := by
  rw [State.closedAt, List.length_map]
  exact List.length_filterMap_le ..

end

section
variable {s : State} {m : ChannelId} {f : ScanFrame} {coord : Nat} {r : Recipe}
  (active : (s.channel m).lp.state = .active) (clear : (s.channel m).obscures r (frameSamples f) = false)
include active clear

/-- The strand after a processed ACTIVE line: its flags set, then its records received. -/
theorem State.processed_strand :
    ∃ records : List DefectRecord,
      ((s.processing m f coord r).processLine m coord r true (.taken (frameSamples f))).strand (s.channel m).cfg.strand =
        records.foldl Strand.receive ((s.strandOf m).markFace (s.channel m).cfg.face
          (lineFlags (s.runsAt m coord r (frameSamples f)).overflow
            (decide (0 < (s.associationAt m coord r (frameSamples f)).dropped)))) ∧
      (s.transversesAt m coord r (frameSamples f)).Sublist records ∧
        ((s.closedAt m coord r (frameSamples f)).filter (longEnough r.minDefectMm)).Sublist records ∧
          records.length ≤ 32 := by
  have ready : (s.channel m).lp.state.Processing := .inr active
  have st : ((s.processing m f coord r).channel m).lp.state = .active := by
    rw [State.processing_lp ready clear]
    exact active
  have strand := (s.processing m f coord r).processActive_strand m coord r (frameSamples f)
  have length := (s.processing m f coord r).receivedAt_length m coord r (frameSamples f)
  have sublists := mergeOpen_sublists Config.transverseFirst
    (((s.processing m f coord r).transversesAt m coord r (frameSamples f)).length +
      (((s.processing m f coord r).closedAt m coord r (frameSamples f)).filter (longEnough r.minDefectMm)).length)
    ((s.processing m f coord r).countedAt m coord r (frameSamples f)).draws
    ((s.processing m f coord r).transversesAt m coord r (frameSamples f))
    (((s.processing m f coord r).closedAt m coord r (frameSamples f)).filter (longEnough r.minDefectMm))
  rw [State.countedAt_strand, State.processing_strandOf, State.processing_cfg,
    State.processing_runsAt s m f coord r ready clear, State.processing_associationAt s m f coord r ready clear] at strand
  have few := s.transversesAt_length_le m coord r (frameSamples f)
  have closes := s.closedAt_length_le m coord r (frameSamples f)
  have emits := List.length_filter_le (longEnough r.minDefectMm) (s.closedAt m coord r (frameSamples f))
  rw [State.processing_transversesAt s m f coord r ready clear, State.processing_closedAt s m f coord r ready clear] at length
  refine ⟨(s.processing m f coord r).receivedAt m coord r (frameSamples f), ?_, ?_, ?_, by omega⟩
  · rw [State.processLine_of_active _ m st]
    exact strand
  · rw [← State.processing_transversesAt s m f coord r ready clear]
    exact sublists.1
  · rw [← State.processing_closedAt s m f coord r ready clear]
    exact sublists.2

/-- Where the pending queue has room for a line's records, they all reach it. -/
theorem State.processed_defects (room : (s.strandOf m).defects.length ≤ 64) :
    ∃ added,
      (((s.processing m f coord r).processLine m coord r true (.taken (frameSamples f))).strand
        (s.channel m).cfg.strand).defects = (s.strandOf m).defects ++ added ∧
        (s.transversesAt m coord r (frameSamples f)).Sublist added ∧
          ((s.closedAt m coord r (frameSamples f)).filter (longEnough r.minDefectMm)).Sublist added := by
  obtain ⟨records, strand, transverses, longitudinals, few⟩ := State.processed_strand (coord := coord) active clear
  refine ⟨records, ?_, transverses, longitudinals⟩
  rw [strand, (Strand.receiveAll_eq ..).1, List.take_of_length_le]
  · rfl
  · show _ ≤ 96 - (s.strandOf m).defects.length
    omega

/-- The face of the open billet after a processed ACTIVE line. -/
theorem State.processed_face {b : OpenBillet} (opened : (s.strandOf m).billet = some b) :
    ∃ b', (((s.processing m f coord r).processLine m coord r true (.taken (frameSamples f))).strand
        (s.channel m).cfg.strand).billet = some b' ∧
      b'.faces[faceIndex (s.channel m).cfg.face] =
        b.faces[faceIndex (s.channel m).cfg.face].map
          (lineFlags (s.runsAt m coord r (frameSamples f)).overflow
            (decide (0 < (s.associationAt m coord r (frameSamples f)).dropped))) := by
  obtain ⟨records, strand, -⟩ := State.processed_strand (coord := coord) active clear
  rw [strand, (Strand.receiveAll_eq ..).2.1, Strand.markFace, opened]
  exact ⟨_, rfl, modFace_flags ..⟩

end

/-! ### O58 -/

theorem isNarrow_not (r : Recipe) (run : Run) : (!isNarrow r run) = decide (r.narrowMax < run.last - run.first + 1) := by
  rw [isNarrow, Run.width, ← decide_not, decide_eq_decide, Nat.not_le]

theorem narrow_length (r : Recipe) (runs : List Run) :
    (runs.filter (isNarrow r)).length = runs.length - (runs.filter fun run => !isNarrow r run).length := by
  rw [← filter_not_length]
  simp only [Bool.not_not]

theorem State.processed_runCount {s : State} {m : ChannelId} {f : ScanFrame} {coord : Nat} {r : Recipe}
    (active : (s.channel m).lp.state = .active) (clear : (s.channel m).obscures r (frameSamples f) = false)
    {k : ChannelCounter} (own : k = .narrowRuns ∨ k = .wideRuns ∨ k = .mark ∨ k = .transverse ∨ k = .runOverflow) :
    ((s.processing m f coord r).processLine m coord r true (.taken (frameSamples f))).channelCount m k =
      s.channelCount m k + runCounts (s.runsAt m coord r (frameSamples f)) k := by
  have others : ofReceiver k = false ∧ k ≠ .obscuredLines ∧ (k ≠ .recordsEmitted ∧ k ≠ .tooShort) ∧
      ∀ a, associationCounts a k = 0 := by
    rcases own with rfl | rfl | rfl | rfl | rfl <;> exact ⟨rfl, nofun, ⟨nofun, nofun⟩, fun _ => rfl⟩
  obtain ⟨receiver, unobscured, emission, association⟩ := others
  rw [State.processed_count active clear receiver unobscured, association, emissionCount_of_other emission, add_zero,
    add_zero]

/-- The transverse runs are the wide ones that are no marks (R67). -/
theorem transverses_length (r : Recipe) (gate : Bool) (wide : List Run) :
    (wide.filter fun run => !isMark r gate run).length = wide.length - (wide.filter (isMark r gate)).length :=
  filter_not_length (isMark r gate) wide

theorem residual_cases (p : Polarity) (baseline x : Nat) :
    residual p baseline x =
      if p = .dark then ((baseline : Int) - 16 * x).tdiv 16 else (16 * (x : Int) - baseline).tdiv 16 := by
  cases p <;> rfl

theorem overflow_count (all : List Run) :
    BitVec.ofNat 32 (runsOverflow all).toNat = if 16 < all.length then (1 : Counter) else 0 := by
  by_cases more : 16 < all.length <;> simp [runsOverflow, more]

/-- Settles O58: the counters and the records of a processed ACTIVE line, over the runs of its hits. -/
theorem wideRunsAreMarksInsideTheGate : Obligations.WideRunsAreMarksInsideTheGate := by
  intro s m f k coord e runs cast completes accepts awaiting c x r window sample column fit residual hits kept wide gate
    marks last active few
  have fits : ∀ j, (usable true (column j) (sample j) && (column j).seeded) = fit j := fun j => usable_and_seeded _ _
  have clear : c.obscures r (frameSamples f) = false := by
    have dim : ∀ j, c.lp.unusable (frameSamples f) j = !fit j := fun j => by
      rw [LineProcessor.unusable_eq, active, ChannelState.tracking, Bool.not_true, Bool.or_false]
    rw [Channel.obscures_eq_false]
    simp only [dim, Bool.and_comm _ (!fit _)]
    rw [← List.filter_filter]
    exact few
  have next := exec_processed (.inr active) clear runs cast completes accepts awaiting last rfl
  have found : lineHits r c.cfg.groups (frameSamples f) c.lp.columns = hits := by
    have residuals : ∀ j, Machine.residual r.polarity (column j).baseline (sample j).value = residual j := fun j =>
      residual_cases ..
    have stands : ∀ j, (usable true (column j) (sample j) && (column j).seeded &&
        isHit r true (column j).baseline (sample j).value) = (fit j && decide ((r.hitThreshold : Int) ≤ residual j)) :=
      fun j => by rw [fits, isHit, Bool.true_and, residuals]
    rw [lineHits_eq, windowColumns, inWindow_eq]
    exact congrArg₂ (fun p g => (window.filter p).map g) (funext stands)
      (funext fun j => congrArg (fun d : Int => (j, d.toNat)) (residuals j))
  have sorted : s.runsAt m coord r (frameSamples f) = sortRuns r gate hits := congrArg (sortRuns r gate) found
  have count := fun k own => State.processed_runCount (coord := coord) active clear (k := k) own
  rw [sorted] at count
  have wides : (sortRuns r gate hits).wide = wide := by
    simp only [sortRuns, isNarrow_not]
    rfl
  have narrows : (sortRuns r gate hits).narrow.length = kept.length - wide.length := by
    rw [← wides]
    exact narrow_length r kept
  have transverses : (sortRuns r gate hits).transverses = wide.filter fun run => !isMark r gate run := by rw [← wides]; rfl
  have lengths : (sortRuns r gate hits).transverses.length = wide.length - marks.length := by
    rw [transverses]
    exact transverses_length r gate wide
  have few : marks.length ≤ wide.length := List.length_filter_le ..
  refine ⟨_, next, ?_, ?_, ?_, ?_, ?_, fun room run mem unmarked => ?_⟩
  · rw [count .narrowRuns (by simp), runCounts, narrows]
  · rw [count .wideRuns (by simp), runCounts, wides]
  · rw [count .mark (by simp), runCounts, wides, lengths, Nat.sub_sub_self few]
  · rw [count .transverse (by simp), runCounts, lengths]
  · rw [count .runOverflow (by simp), runCounts]
    exact congrArg _ (overflow_count _)
  · obtain ⟨added, defects, reach, -⟩ := State.processed_defects (coord := coord) active clear room
    have unmarked : isMark r gate run = false :=
      Bool.eq_false_iff.2 fun marked => unmarked (List.mem_filter.2 ⟨mem, marked⟩)
    have sent : run ∈ (s.runsAt m coord r (frameSamples f)).transverses := by
      rw [sorted, transverses]
      exact List.mem_filter.2 ⟨mem, by rw [unmarked]; rfl⟩
    rw [defects]
    exact List.mem_append_right _ (reach.subset (List.mem_map_of_mem sent))

end Sys2Proof.Machine

/-! Narrow runs and tracks (06, R96 to R107): the candidate a run takes, the first pass and the second, and the
association of a processed ACTIVE line. -/

namespace Sys2Proof.Machine

/-! ### The candidate of a run (R99) -/

theorem centreDistance_eq (a b : Nat) : centreDistance a b = columnsApart a b := by
  unfold centreDistance columnsApart
  split <;> omega

/-- The slot holds a track that the run may go to (R99). -/
def Work.May (w : Work) (gate : Nat) (run : Run) (t : Track) : Prop :=
  w.track = some t ∧ w.run = none ∧ w.opened = false ∧ columnsApart run.centre t.centre ≤ gate

theorem candidate_eq_some_iff (gate : Nat) (run : Run) (w : Work) (d : Nat × Nat) :
    candidate gate run w = some d ↔ ∃ t, w.May gate run t ∧ d = (columnsApart run.centre t.centre, t.start) := by
  obtain ⟨track, taken, opened⟩ := w
  cases track with
  | none => simp [candidate, Work.May]
  | some t =>
    simp only [candidate, Work.May, centreDistance_eq, Option.isNone_iff_eq_none, Bool.and_eq_true, Bool.not_eq_true',
      decide_eq_true_eq, Option.ite_none_right_eq_some, Option.some.injEq, and_assoc]
    exact ⟨fun ⟨free, still, near, own⟩ => ⟨t, rfl, free, still, near, own.symm⟩,
      fun ⟨_, same, free, still, near, own⟩ => same ▸ ⟨free, still, same ▸ near, same ▸ own.symm⟩⟩

theorem candidate_eq_none_iff (gate : Nat) (run : Run) (w : Work) :
    candidate gate run w = none ↔ ∀ t, ¬w.May gate run t := by
  rw [Option.eq_none_iff_forall_ne_some]
  refine ⟨fun none t may => none _ ((candidate_eq_some_iff ..).2 ⟨t, may, rfl⟩), fun none d found => ?_⟩
  obtain ⟨t, may, -⟩ := (candidate_eq_some_iff ..).1 found
  exact none t may

/-- Slot i of distance and start d goes before slot j of distance and start e (R99). -/
def GoesBefore (i : SlotId) (d : Nat × Nat) (j : SlotId) (e : Nat × Nat) : Prop :=
  d.1 < e.1 ∨ d.1 = e.1 ∧ (d.2 < e.2 ∨ d.2 = e.2 ∧ i ≤ j)

theorem candidateBefore_iff (a b : Nat × Nat) : candidateBefore a b = true ↔ a.1 < b.1 ∨ a.1 = b.1 ∧ a.2 < b.2 := by
  simp [candidateBefore]

theorem GoesBefore.refl (i : SlotId) (d : Nat × Nat) : GoesBefore i d i d := .inr ⟨rfl, .inr ⟨rfl, le_refl i⟩⟩

theorem GoesBefore.of_candidateBefore {d e : Nat × Nat} (before : candidateBefore d e = true) (i j : SlotId) :
    GoesBefore i d j e := by
  rcases (candidateBefore_iff d e).1 before with near | ⟨same, early⟩
  · exact .inl near
  · exact .inr ⟨same, .inl early⟩

theorem GoesBefore.of_not_candidateBefore {d e : Nat × Nat} (after : ¬candidateBefore e d = true) {i j : SlotId}
    (lower : i ≤ j) : GoesBefore i d j e := by
  rw [candidateBefore_iff] at after
  rw [GoesBefore, Fin.le_def]
  rw [Fin.le_def] at lower
  omega

theorem GoesBefore.trans {i j k : SlotId} {d e f : Nat × Nat} (first : GoesBefore i d j e) (second : GoesBefore j e k f) :
    GoesBefore i d k f := by
  rw [GoesBefore, Fin.le_def] at *
  omega

theorem bestCandidate_eq_none_iff (gate : Nat) (run : Run) (work : Vector Work 16) (slots : List SlotId) :
    bestCandidate gate run work slots = none ↔ ∀ i ∈ slots, candidate gate run work[i] = none := by
  induction slots with
  | nil => simp [bestCandidate]
  | cons i rest ih =>
    rw [List.forall_mem_cons, ← ih, bestCandidate]
    cases candidate gate run work[i] with
    | none => simp
    | some d =>
      cases bestCandidate gate run work rest with
      | none => simp
      | some found =>
        obtain ⟨j, e⟩ := found
        dsimp only
        split <;> simp

/-- The candidate found goes before every candidate among the slots, which stand in order. -/
theorem bestCandidate_first {gate : Nat} {run : Run} {work : Vector Work 16} {slots : List SlotId}
    (sorted : slots.Pairwise (· < ·)) {i : SlotId} {d : Nat × Nat}
    (found : bestCandidate gate run work slots = some (i, d)) :
    i ∈ slots ∧ candidate gate run work[i] = some d ∧
      ∀ j ∈ slots, ∀ e, candidate gate run work[j] = some e → GoesBefore i d j e := by
  induction slots generalizing i d with
  | nil => exact nomatch found
  | cons k rest ih =>
    obtain ⟨lower, rest_sorted⟩ := List.pairwise_cons.1 sorted
    rw [bestCandidate] at found
    cases here : candidate gate run work[k] with
    | none =>
      rw [here] at found
      obtain ⟨mem, cand, least⟩ := ih rest_sorted found
      refine ⟨.tail _ mem, cand, List.forall_mem_cons.2 ⟨fun e own => (nomatch here.symm.trans own), least⟩⟩
    | some c =>
      cases later : bestCandidate gate run work rest with
      | none =>
        rw [here, later] at found
        obtain ⟨rfl, rfl⟩ := Prod.mk.inj (Option.some.inj found)
        have none := (bestCandidate_eq_none_iff ..).1 later
        refine ⟨.head _, here,
          List.forall_mem_cons.2 ⟨fun e own => ?_, fun j mem e own => nomatch (none j mem).symm.trans own⟩⟩
        rw [← Option.some.inj (here.symm.trans own)]
        exact .refl ..
      | some other =>
        obtain ⟨l, b⟩ := other
        obtain ⟨mem, cand, least⟩ := ih rest_sorted later
        rw [here, later] at found
        dsimp only at found
        split at found
        next before =>
          obtain ⟨rfl, rfl⟩ := Prod.mk.inj (Option.some.inj found)
          refine ⟨.tail _ mem, cand, List.forall_mem_cons.2 ⟨fun e own => ?_, least⟩⟩
          rw [← Option.some.inj (here.symm.trans own)]
          exact .of_candidateBefore before ..
        next after =>
          obtain ⟨rfl, rfl⟩ := Prod.mk.inj (Option.some.inj found)
          refine ⟨.head _, here, List.forall_mem_cons.2 ⟨fun e own => ?_, fun j mem' e own => ?_⟩⟩
          · rw [← Option.some.inj (here.symm.trans own)]
            exact .refl ..
          · exact (GoesBefore.of_not_candidateBefore after (lower l mem).le).trans (least j mem' e own)

theorem allSlots_sorted : allSlots.Pairwise (· < ·) := by decide

/-- Track t of slot i goes before track u of slot j, as a candidate for the run (R99). -/
def NearerFor (run : Run) (i : SlotId) (t : Track) (j : SlotId) (u : Track) : Prop :=
  columnsApart run.centre t.centre < columnsApart run.centre u.centre ∨
    columnsApart run.centre t.centre = columnsApart run.centre u.centre ∧
      (t.start < u.start ∨ t.start = u.start ∧ i ≤ j)

theorem no_candidate_iff (gate : Nat) (run : Run) (work : Vector Work 16) :
    bestCandidate gate run work allSlots = none ↔ ∀ (i : SlotId) (t : Track), ¬(work[i]).May gate run t := by
  simp only [bestCandidate_eq_none_iff, candidate_eq_none_iff, mem_allSlots, true_imp_iff]

theorem candidate_nearest {gate : Nat} {run : Run} {work : Vector Work 16} {i : SlotId} {d : Nat × Nat}
    (found : bestCandidate gate run work allSlots = some (i, d)) :
    ∃ t, (work[i]).May gate run t ∧ ∀ (j : SlotId) (u : Track), (work[j]).May gate run u → NearerFor run i t j u := by
  obtain ⟨-, own, least⟩ := bestCandidate_first allSlots_sorted found
  obtain ⟨t, may, rfl⟩ := (candidate_eq_some_iff ..).1 own
  exact ⟨t, may, fun j u other =>
    least j (mem_allSlots j) _ ((candidate_eq_some_iff ..).2 ⟨u, other, rfl⟩)⟩

theorem lowestFree_eq_none_iff (work : Vector Work 16) : lowestFree work = none ↔ ∀ i : SlotId, (work[i]).track ≠ none := by
  simp only [lowestFree, List.find?_eq_none, mem_allSlots, true_imp_iff, Option.isNone_iff_eq_none, ne_eq]

theorem lowestFree_least {work : Vector Work 16} {i : SlotId} (found : lowestFree work = some i) :
    (work[i]).track = none ∧ ∀ j : SlotId, (work[j]).track = none → i ≤ j := by
  obtain ⟨free, lower, upper, split, taken⟩ := List.find?_eq_some_iff_append.1 found
  refine ⟨Option.isNone_iff_eq_none.1 free, fun j own => ?_⟩
  have sorted := allSlots_sorted
  have mem := mem_allSlots j
  rw [split] at sorted mem
  have above := (List.pairwise_cons.1 (List.pairwise_append.1 sorted).2.1).1
  rcases List.mem_append.1 mem with low | high
  · have held := taken j low
    rw [own] at held
    exact nomatch held
  · rcases List.mem_cons.1 high with rfl | up
    · exact le_refl j
    · exact (above j up).le

/-! ### The runs given out (R99 to R102) -/

/-- Run by run, the slot a run has gone to has this run. -/
def runGiven (given : List (Option SlotId)) (runs : List Run) (i : SlotId) : Option Run :=
  ((given.zip runs).find? fun p => decide (p.1 = some i)).map (·.2)

theorem runGiven_append {given : List (Option SlotId)} {runs : List Run} (length : given.length = runs.length)
    (x : Option SlotId) (run : Run) (i : SlotId) :
    runGiven (given ++ [x]) (runs ++ [run]) i = (runGiven given runs i).or (if x = some i then some run else none) := by
  rw [runGiven, List.zip_append length, List.find?_append, Option.map_or]
  congr 1
  by_cases own : x = some i <;> simp [own]

theorem runGiven_eq_none_iff {given : List (Option SlotId)} {runs : List Run} (length : given.length = runs.length)
    (i : SlotId) : runGiven given runs i = none ↔ some i ∉ given := by
  have slots : (given.zip runs).map Prod.fst = given := List.map_fst_zip length.le
  simp only [runGiven, Option.map_eq_none_iff, List.find?_eq_none, decide_eq_true_eq]
  refine ⟨fun none mem => ?_, fun untaken p mem own => untaken ?_⟩
  · obtain ⟨p, own, same⟩ := List.mem_map.1 (slots ▸ mem)
    exact none p own same
  · rw [← own, ← slots]
    exact List.mem_map_of_mem mem

/-- What the first pass makes of a slot: the track that stood there, or one opened by the run it was given. -/
def workOf (line : Nat) : Option Track → Option Run → Work
  | none, none => ⟨none, none, false⟩
  | none, some run => ⟨some (openTrack line run), none, true⟩
  | some t, run => ⟨some t, run, false⟩

theorem workOf_may (line gate : Nat) (run : Run) (old : Option Track) (taken : Option Run) (t : Track) :
    (workOf line old taken).May gate run t ↔
      old = some t ∧ taken = none ∧ columnsApart run.centre t.centre ≤ gate := by
  cases old with
  | none => cases taken <;> simp [workOf, Work.May]
  | some u => simp [workOf, Work.May]

theorem workOf_free (line : Nat) (old : Option Track) (taken : Option Run) :
    (workOf line old taken).track = none ↔ old = none ∧ taken = none := by
  cases old with
  | none => cases taken <;> simp [workOf]
  | some u => simp [workOf]

/-- The run goes to the slot, or to none, as R99 to R102 say, the runs before it having gone to theirs. -/
def GoesByR99 (gate : Nat) (old : SlotId → Option Track) (before : List (Option SlotId)) (run : Run) :
    Option SlotId → Prop
  | some i =>
    (∃ t, (old i = some t ∧ some i ∉ before ∧ columnsApart run.centre t.centre ≤ gate) ∧
      ∀ j u, (old j = some u ∧ some j ∉ before ∧ columnsApart run.centre u.centre ≤ gate) → NearerFor run i t j u) ∨
      (∀ j u, ¬(old j = some u ∧ some j ∉ before ∧ columnsApart run.centre u.centre ≤ gate)) ∧
        (old i = none ∧ some i ∉ before) ∧ ∀ j, (old j = none ∧ some j ∉ before) → i ≤ j
  | none =>
    (∀ j u, ¬(old j = some u ∧ some j ∉ before ∧ columnsApart run.centre u.centre ≤ gate)) ∧
      ∀ j, ¬(old j = none ∧ some j ∉ before)

theorem givenByR99_iff (gate : Nat) (runs : List Run) (old : SlotId → Option Track) (given : List (Option SlotId)) :
    GivenByR99 gate runs old given ↔
      given.length = runs.length ∧
        ∀ j run, runs[j]? = some run → GoesByR99 gate old (given.take j) run given[j]?.join := by
  refine and_congr_right fun _ => forall₃_congr fun j run _ => ?_
  cases given[j]?.join <;> rfl

theorem GivenByR99.append {gate : Nat} {runs : List Run} {old : SlotId → Option Track} {given : List (Option SlotId)}
    (goes : GivenByR99 gate runs old given) {run : Run} {x : Option SlotId} (next : GoesByR99 gate old given run x) :
    GivenByR99 gate (runs ++ [run]) old (given ++ [x]) := by
  rw [givenByR99_iff] at goes ⊢
  obtain ⟨length, each⟩ := goes
  refine ⟨by simp [length], fun j other at_ => ?_⟩
  by_cases earlier : j < runs.length
  · have within : j < given.length := length ▸ earlier
    rw [List.getElem?_append_left earlier] at at_
    rw [List.getElem?_append_left within, List.take_append_of_le_length within.le]
    exact each j other at_
  · have last : j = runs.length := by
      have := (List.getElem?_eq_some_iff.1 at_).1
      rw [List.length_append, List.length_singleton] at this
      omega
    subst last
    rw [List.getElem?_concat_length] at at_
    rw [← length, List.getElem?_concat_length, List.take_left, ← Option.some.inj at_]
    exact next

/-! ### The first pass (R99 to R102) -/

/-- The first pass after the runs that have gone to their slots. -/
structure Placed (gate line : Nat) (old : SlotId → Option Track) (runs : List Run) (given : List (Option SlotId))
    (p : FirstPass) : Prop where
  goes : GivenByR99 gate runs old given
  work : ∀ i : SlotId, p.work[i] = workOf line (old i) (runGiven given runs i)
  opened : p.opened = (allSlots.filter fun i => (old i).isNone && (runGiven given runs i).isSome).length
  dropped : p.dropped = (given.filter (·.isNone)).length

/-- One more of a list passes a test. -/
theorem length_filter_or_eq {α : Type} [DecidableEq α] {l : List α} (nodup : l.Nodup) {a : α} (mem : a ∈ l)
    {p : α → Bool} (out : p a = false) :
    (l.filter fun b => p b || decide (b = a)).length = (l.filter p).length + 1 := by
  induction l with
  | nil => exact nomatch mem
  | cons b l ih =>
    obtain ⟨fresh, rest⟩ := List.nodup_cons.1 nodup
    rcases List.mem_cons.1 mem with rfl | later
    · have same : (l.filter fun b => p b || decide (b = a)) = l.filter p :=
        List.filter_congr fun b inside => by
          rw [decide_eq_false fun e : b = a => fresh (e ▸ inside), Bool.or_false]
      simp [out, same]
    · have apart : b ≠ a := fun e => fresh (e ▸ later)
      cases own : p b <;> simp [own, apart, ih rest later]

theorem slot_set (v : Vector Work 16) (i j : SlotId) (w : Work) : (v.set i w)[j] = if i = j then w else v[j] := by
  simp only [Fin.getElem_fin, Vector.getElem_set, Fin.ext_iff]

theorem allSlots_nodup : allSlots.Nodup := by decide

section
variable {gate line : Nat} {old : SlotId → Option Track} {runs : List Run} {given : List (Option SlotId)}
  {p : FirstPass} (placed : Placed gate line old runs given p) (run : Run)
include placed

theorem Placed.length_eq : given.length = runs.length := placed.goes.1

theorem Placed.may_iff (i : SlotId) (t : Track) :
    (p.work[i]).May gate run t ↔ old i = some t ∧ some i ∉ given ∧ columnsApart run.centre t.centre ≤ gate := by
  rw [placed.work, workOf_may, runGiven_eq_none_iff placed.length_eq]

theorem Placed.free_iff (i : SlotId) : (p.work[i]).track = none ↔ old i = none ∧ some i ∉ given := by
  rw [placed.work, workOf_free, runGiven_eq_none_iff placed.length_eq]

/-- A run goes to its candidate. -/
theorem Placed.take {i : SlotId} {d : Nat × Nat} (found : bestCandidate gate run p.work allSlots = some (i, d)) :
    Placed gate line old (runs ++ [run]) (given ++ [some i])
      { p with work := p.work.set i { p.work[i] with run := some run } } := by
  obtain ⟨t, may, nearest⟩ := candidate_nearest found
  simp only [placed.may_iff] at may nearest
  obtain ⟨held, untaken, near⟩ := may
  have free := (runGiven_eq_none_iff placed.length_eq i).2 untaken
  refine ⟨placed.goes.append (.inl ⟨t, ⟨held, untaken, near⟩, nearest⟩), fun j => ?_, ?_, ?_⟩
  · rw [runGiven_append placed.length_eq, slot_set]
    by_cases own : i = j
    · subst own
      simp [placed.work, free, held, workOf]
    · simp [placed.work, own]
  · simp only [placed.opened, runGiven_append placed.length_eq]
    congr 2
    funext j
    by_cases own : i = j
    · subst own
      simp [held]
    · simp [own]
  · simp [placed.dropped]

/-- A run without a candidate opens a track in the lowest FREE slot. -/
theorem Placed.open {i : SlotId} (none : bestCandidate gate run p.work allSlots = none) (found : lowestFree p.work = some i) :
    Placed gate line old (runs ++ [run]) (given ++ [some i])
      { p with work := p.work.set i ⟨some (openTrack line run), .none, true⟩, opened := p.opened + 1 } := by
  have alone := (no_candidate_iff ..).1 none
  obtain ⟨empty, lowest⟩ := lowestFree_least found
  simp only [placed.may_iff] at alone
  simp only [placed.free_iff] at empty lowest
  obtain ⟨unheld, untaken⟩ := empty
  have free := (runGiven_eq_none_iff placed.length_eq i).2 untaken
  refine ⟨placed.goes.append (.inr ⟨alone, ⟨unheld, untaken⟩, lowest⟩), fun j => ?_, ?_, ?_⟩
  · rw [runGiven_append placed.length_eq, slot_set]
    by_cases own : i = j
    · subst own
      simp [free, unheld, workOf]
    · simp [placed.work, own]
  · have counts := length_filter_or_eq allSlots_nodup (mem_allSlots i)
      (p := fun j => (old j).isNone && (runGiven given runs j).isSome) (by rw [free]; exact Bool.and_false _)
    simp only [placed.opened, runGiven_append placed.length_eq]
    rw [← counts]
    congr 2
    funext j
    by_cases own : i = j
    · subst own
      simp [unheld]
    · simp [own, Ne.symm own]
  · simp [placed.dropped]

/-- A run that finds neither is dropped. -/
theorem Placed.drop (none : bestCandidate gate run p.work allSlots = none) (full : lowestFree p.work = .none) :
    Placed gate line old (runs ++ [run]) (given ++ [.none]) { p with dropped := p.dropped + 1 } := by
  have alone := (no_candidate_iff ..).1 none
  have taken := (lowestFree_eq_none_iff _).1 full
  simp only [placed.may_iff] at alone
  simp only [ne_eq, placed.free_iff] at taken
  refine ⟨placed.goes.append ⟨alone, taken⟩, fun j => ?_, ?_, ?_⟩
  · rw [runGiven_append placed.length_eq]
    simp [placed.work]
  · simp only [placed.opened, runGiven_append placed.length_eq]
    simp
  · simp [placed.dropped]

/-- One run of the first pass. -/
theorem Placed.next : ∃ x, Placed gate line old (runs ++ [run]) (given ++ [x]) (placeRun gate line p run) := by
  unfold placeRun
  cases best : bestCandidate gate run p.work allSlots with
  | some found => exact ⟨_, placed.take run best⟩
  | none =>
    cases free : lowestFree p.work with
    | some i => exact ⟨_, placed.open run best free⟩
    | none => exact ⟨_, placed.drop run best free⟩

end

/-- The first pass gives out the narrow runs as R99 to R102 say. -/
theorem firstPass_placed (gate line : Nat) (slots : Vector (Option Track) 16) (narrow : List Run) :
    ∃ given, Placed gate line (fun i => slots[i]) narrow given (firstPass gate line slots narrow) := by
  induction narrow using List.reverseRecOn with
  | nil =>
    refine ⟨[], ⟨⟨rfl, nofun⟩, fun i => ?_, ?_, rfl⟩⟩
    · have untaken : runGiven [] [] i = none := rfl
      rw [untaken]
      simp only [firstPass, List.foldl_nil, Fin.getElem_fin, Vector.getElem_ofFn]
      cases slots[i.val] <;> rfl
    · simp [firstPass, runGiven]
  | append_singleton runs run ih =>
    obtain ⟨given, placed⟩ := ih
    obtain ⟨x, next⟩ := placed.next run
    rw [firstPass, List.foldl_concat]
    exact ⟨_, next⟩

/-! ### The second pass (R103 to R107) -/

/-- A hit confirms a TENTATIVE track at confirm_lines, and leaves any other CONFIRMED. -/
theorem stateAfterHit_eq (confirmLines hits : Nat) (t : Track) :
    stateAfterHit confirmLines t hits =
      if t.state = .tentative ∧ hits < confirmLines then .tentative else .confirmed := by
  unfold stateAfterHit
  cases t.state with
  | tentative => by_cases more : confirmLines ≤ hits <;> simp [more]
  | confirmed | coasting => rfl

theorem hitTrack_eq (line confirmLines : Nat) (run : Run) (t : Track) :
    hitTrack line confirmLines run t = t.afterHit line confirmLines run := by
  unfold hitTrack Track.afterHit
  dsimp only
  rw [stateAfterHit_eq]
  rfl

/-- A miss, by whether it ends the track. -/
theorem missTrack_eq (gapMax : Nat) (t : Track) :
    missTrack gapMax t =
      ⟨if t.lost gapMax then none else some t.missed,
        if t.lost gapMax && decide (t.state ≠ .tentative) then some t.missed else none, false⟩ := by
  obtain ⟨state, start, last, centre, minCol, maxCol, hitLines, peakSum, peakMax, missRun, gapLines, continued⟩ := t
  cases state with
  | tentative =>
    rcases Nat.eq_zero_or_pos missRun with rfl | again
    · rfl
    · simp [missTrack, Track.lost, again, Nat.succ_le_of_lt again]
  | confirmed | coasting => by_cases lost : gapMax < missRun + 1 <;> simp [missTrack, Track.lost, Track.missed, lost]

/-- What a line makes of a slot, by the track that stood there and the run that it was given (R101, R103 to R107). -/
def slotOutcome (line : Nat) (r : Recipe) (spans : List Run) : Option Track → Option Run → SlotOutcome
  | none, none => ⟨none, none, false⟩
  | none, some run => ⟨some (openTrack line run), none, false⟩
  | some t, some run =>
    ⟨some (t.afterHit line r.confirmLines run), none,
      decide (t.state = .tentative ∧ (t.afterHit line r.confirmLines run).state = .confirmed)⟩
  | some t, none =>
    ⟨if covered spans t then some t else if t.lost r.gapMax then none else some t.missed,
      if !covered spans t && t.lost r.gapMax && decide (t.state ≠ .tentative) then some t.missed else none, false⟩

theorem secondPass_workOf (line : Nat) (r : Recipe) (spans : List Run) (old : Option Track) (run : Option Run) :
    secondPass line r spans (workOf line old run) = slotOutcome line r spans old run := by
  cases old with
  | none => cases run <;> rfl
  | some t =>
    cases run with
    | some run => simp [secondPass, workOf, slotOutcome, hitTrack_eq, beq_eq_decide]
    | none =>
      cases hidden : covered spans t with
      | true => simp [secondPass, workOf, slotOutcome, hidden]
      | false => simp [secondPass, workOf, slotOutcome, hidden, missTrack_eq]

section
variable (line : Nat) (r : Recipe) (spans : List Run) (old : Option Track) (run : Option Run)

theorem slotOutcome_track :
    (slotOutcome line r spans old run).track =
      match old, run with
      | none, none => none
      | none, some run => some (openTrack line run)
      | some t, some run => some (t.afterHit line r.confirmLines run)
      | some t, none => if covered spans t then some t else if t.lost r.gapMax then none else some t.missed := by
  cases old <;> cases run <;> rfl

theorem slotOutcome_closed :
    (slotOutcome line r spans old run).closed =
      match old, run with
      | some t, none =>
        if !covered spans t && t.lost r.gapMax && decide (t.state ≠ .tentative) then some t.missed else none
      | _, _ => none := by
  cases old <;> cases run <;> rfl

theorem slotOutcome_confirmed :
    (slotOutcome line r spans old run).confirmed =
      match old, run with
      | some t, some run => decide (t.state = .tentative ∧ (t.afterHit line r.confirmLines run).state = .confirmed)
      | _, _ => false := by
  cases old <;> cases run <;> rfl

end

/-! ### The association (R96) -/

theorem expireSlots_get (pitch line : Nat) (tt : TrackTable) (i : SlotId) :
    (expireSlots pitch line tt.slots)[i] = tt.unexpired pitch line i := by
  rw [expireSlots, slotsOf, Fin.getElem_fin, Vector.getElem_ofFn]
  exact expireTrack_bind ..

/-- An association hand-over does what R96 to R107 say. -/
theorem associate_spec (pitch line : Nat) (r : Recipe) (narrow spans : List Run) (tt : TrackTable) :
    AssociationOf pitch line r narrow spans tt (associate pitch line r narrow spans tt) := by
  obtain ⟨given, placed⟩ := firstPass_placed r.gate line (expireSlots pitch line tt.slots) narrow
  simp only [expireSlots_get] at placed
  have outcome : ∀ i : SlotId,
      secondPass line r spans (firstPass r.gate line (expireSlots pitch line tt.slots) narrow).work[i] =
        slotOutcome line r spans (tt.unexpired pitch line i) (runGiven given narrow i) := fun i => by
    rw [placed.work, secondPass_workOf]
  refine ⟨given, placed.goes, rfl, fun i => ?_, ?_, placed.opened, ?_, placed.dropped⟩
  · exact (slotsOf_get _ i).trans ((congrArg SlotOutcome.track (outcome i)).trans (slotOutcome_track ..))
  · exact List.filterMap_congr fun i _ => (congrArg SlotOutcome.closed (outcome i)).trans (slotOutcome_closed ..)
  · exact congrArg List.length (List.filter_congr fun i _ =>
      (congrArg SlotOutcome.confirmed (outcome i)).trans (slotOutcome_confirmed ..))

/-! ### O60 -/

section
variable {s : State} {m : ChannelId} {f : ScanFrame} {coord : Nat} {r : Recipe}
  (active : (s.channel m).lp.state = .active) (clear : (s.channel m).obscures r (frameSamples f) = false)

include active clear in
/-- The channel after a processed ACTIVE line: its configuration stays, and the association sets its tracks. -/
theorem State.processed_channel :
    (((s.processing m f coord r).processLine m coord r true (.taken (frameSamples f))).channel m).cfg =
        (s.channel m).cfg ∧
      (((s.processing m f coord r).processLine m coord r true (.taken (frameSamples f))).channel m).tt =
        (s.associationAt m coord r (frameSamples f)).table := by
  have ready : (s.channel m).lp.state.Processing := .inr active
  have st : ((s.processing m f coord r).channel m).lp.state = .active := by
    rw [State.processing_lp ready clear]
    exact active
  rw [State.processLine_of_active _ m st, State.processActive_channel,
    ← State.processing_associationAt s m f coord r ready clear, ← State.processing_cfg s m f coord r]
  exact ⟨rfl, rfl⟩

include active clear in
/-- The counters that the association and its records move (R101, R102, R104, R109). -/
theorem State.processed_trackCount {k : ChannelCounter}
    (own : k = .tracksOpened ∨ k = .tracksConfirmed ∨ k = .tableFull ∨ k = .recordsEmitted ∨ k = .tooShort) :
    ((s.processing m f coord r).processLine m coord r true (.taken (frameSamples f))).channelCount m k =
      s.channelCount m k +
        (associationCounts (s.associationAt m coord r (frameSamples f)) k +
          emissionCount r.minDefectMm (s.closedAt m coord r (frameSamples f)) k) := by
  have others : ofReceiver k = false ∧ k ≠ .obscuredLines ∧ ∀ runs, runCounts runs k = 0 := by
    rcases own with rfl | rfl | rfl | rfl | rfl <;> exact ⟨rfl, nofun, fun _ => rfl⟩
  obtain ⟨receiver, unobscured, runs⟩ := others
  rw [State.processed_count active clear receiver unobscured, runs, add_zero, add_assoc]

theorem emissionCount_of_emitted (a : Association) (minMm : Nat) (rs : List DefectRecord) :
    associationCounts a .recordsEmitted + emissionCount minMm rs .recordsEmitted =
      BitVec.ofNat 32 (longOnes minMm rs).length := by
  simp [associationCounts, emissionCount, longOnes_eq]

theorem emissionCount_of_short (a : Association) (minMm : Nat) (rs : List DefectRecord) :
    associationCounts a .tooShort + emissionCount minMm rs .tooShort =
      BitVec.ofNat 32 (rs.length - (longOnes minMm rs).length) := by
  rw [longOnes_eq, ← filter_not_length]
  simp [associationCounts, emissionCount]

/-- The runs of the line, over its hits. -/
theorem State.runsAt_hitsOn (line : Nat) (samples : List Sample) :
    s.runsAt m line r samples =
      sortRuns r (s.gateAt m line) ((s.channel m).lp.hitsOn r (s.channel m).cfg.groups samples) := by
  rw [State.runsAt, LineProcessor.hitsOn_eq]

theorem sortRuns_wide (gate : Bool) (hits : List (Nat × Nat)) :
    (sortRuns r gate hits).wide =
      ((runsOf r.runBridge hits).take 16).filter fun run => decide (r.narrowMax < run.last - run.first + 1) := by
  simp only [← isNarrow_not]
  rfl

end

/-- Settles O60: the candidate of a run; then the association of a processed ACTIVE line, its counters, flags and
records. -/
theorem runsGoToTheNearestTrack : Obligations.RunsGoToTheNearestTrack := by
  refine ⟨fun gate run work => ⟨no_candidate_iff gate run work, fun i d found => candidate_nearest found⟩, ?_⟩
  intro s m f k coord e runs awaiting last active shows_ c x r all narrow wide
  obtain ⟨g, same, cast, completes, accepts, -, clear⟩ := shows_
  obtain rfl : f = g := (Instr.scanFrame.inj same).2
  have next := exec_processed (.inr active) clear runs cast completes accepts awaiting last rfl
  have sorted : s.runsAt m coord r (frameSamples f) = sortRuns r (s.gateAt m coord) (c.lp.hitsOn r c.cfg.groups (frameSamples f)) :=
    State.runsAt_hitsOn ..
  have wides : (s.runsAt m coord r (frameSamples f)).wide = wide := by
    rw [sorted]
    exact sortRuns_wide ..
  have narrows : (s.runsAt m coord r (frameSamples f)).narrow = narrow := by rw [sorted]; rfl
  have overflow : (s.runsAt m coord r (frameSamples f)).overflow = decide (16 < all.length) := by rw [sorted]; rfl
  have associated : AssociationOf x.cfg.countsPerLine coord r narrow wide c.tt (s.associationAt m coord r (frameSamples f)) := by
    rw [State.associationAt, narrows, wides]
    exact associate_spec ..
  have count := fun k own => State.processed_trackCount (coord := coord) active clear (k := k) own
  have defects := State.processed_defects (coord := coord) active clear
  have face := fun b opened => State.processed_face (coord := coord) active clear (b := b) opened
  obtain ⟨cfg, table⟩ := State.processed_channel (coord := coord) active clear
  generalize (s.processing m f coord r).processLine m coord r true (.taken (frameSamples f)) = t
    at next count defects face cfg table
  have strand : t.strandOf m = t.strand c.cfg.strand := by rw [State.strandOf, cfg]
  refine ⟨t, s.associationAt m coord r (frameSamples f), next, associated, table, ?_, ?_, ?_, fun b opened => ?_, ?_, ?_,
    fun room => ?_⟩
  · rw [count .tracksOpened (by simp)]
    simp [associationCounts, emissionCount, r]
  · rw [count .tracksConfirmed (by simp)]
    simp [associationCounts, emissionCount, r]
  · rw [count .tableFull (by simp)]
    simp [associationCounts, emissionCount, r]
  · obtain ⟨b', after, flags⟩ := face b opened
    rw [overflow] at flags
    exact ⟨b', by rw [strand]; exact after, flags⟩
  · rw [count .recordsEmitted (by simp)]
    exact congrArg _ (emissionCount_of_emitted ..)
  · rw [count .tooShort (by simp)]
    exact congrArg _ (emissionCount_of_short ..)
  · obtain ⟨added, after, -, reach⟩ := defects room
    exact ⟨added, by rw [strand]; exact after, reach⟩

end Sys2Proof.Machine
